-- ==== Sys2Proof/Word.lean ====
section
/-! DEFINITION. The plain types the other files share: bytes, samples, flag sets, counters, timers, and sparse data by key. -/

namespace Sys2Proof

/-- A byte of a link (R180) or of the sample memory. -/
abbrev Byte := BitVec 8

/-- A sample word of 32 bits, two's complement (R68, R85). -/
abbrev Sample := BitVec 32

/-- A page number, 0 to 16,383 (R85). -/
abbrev PageNo := BitVec 14

/-- A set of the twelve event flags, bit i being flag i of R181. -/
abbrev FlagSet := BitVec 12

/-- A set of the six quality flags, bit i being bit i of the segment flags of a channel header. -/
abbrev QualitySet := BitVec 6

/-- An unsigned 32-bit counter, 0 to `counterMax` ("Counters", 00_scope). -/
abbrev Counter := Nat

/-- The value at which every counter stays (R22, R111, R159, R177). -/
def counterMax : Nat := 4294967295

/-- A timer: stopped (`none`), or running with the running time, in nanoseconds, since its last start or restart (R41). -/
abbrev Timer := Option Nat

/-- Sparse data by key, keys strictly rising; what an unlisted key stands for is said where it is used. -/
abbrev Assoc (α : Type) := List (Nat × α)

/-- Nanoseconds in a second. -/
def nsPerSecond : Nat := 1000000000

/-- Nanoseconds in a millisecond. -/
def nsPerMs : Nat := 1000000

end Sys2Proof
end

