-- ==== Sys2Proof/Syntax.lean ====
section
/-! DEFINITION. The commands: one constructor of `Instr` for each row of spec/opcode_table.json, with its operands. -/

namespace Sys2Proof

/-- The two trunk ports (R103). -/
inductive Port where
  | a
  | b
deriving DecidableEq, Repr

/-- A time mark (R42): valid, with its second number, or bare. -/
inductive Mark where
  | valid (second : BitVec 32)
  | bare
deriving DecidableEq, Repr

/-- The steps of the part. A directive's parameters are not operands here: they are bytes of the directive packet that the
Management Agent is executing (R162, R182; assumption log 8). -/
inductive Instr where
  | powerOnReset (straps : BitVec 4)
  | packetArrival (port : Port) (bytes : List Byte)
  | lossOfSignalIndication (port : Port)
  | linkLossTimerExpiry (port : Port)
  | arbiterTake
  | handOff
  | silenceTimerExpiry (slot : Nat)
  | timeMark (mark : Mark)
  | markTimerExpiry
  | holdoverTimerExpiry
  | withholdSuspension
  | closeTimeReached
  | stallTimerExpiry
  | directivePacketArrival (bytes : List Byte)
  | forwardComplete
  | hold
  | release
  | frameArrival (bytes : List Byte)
  | chainLossOfSignal
  | chainLinkLossTimerExpiry
  | grant
  | fragmentCompletion
  | answerCompletion
  | passThroughCompletion
  | noticeCompletion
  | beginPacket
  | unknown
  | identify
  | setPlan
  | setReference
  | setLinks
  | mapStation
  | unmapStation
  | setChannel
  | stageCorrection
  | commitCorrection
  | discardStaged
  | quarantine
  | unquarantine
  | readStation
  | readCounters
  | readStore
  | readFlags
  | clearFlags
  | setNoticeMask
  | storeStart
  | storeStop
  | storeSuspend
  | storeResume
  | restart
deriving DecidableEq, Repr

end Sys2Proof
end

