-- ==== Sys2Proof/Decode.lean ====
section
/-! DEFINITION. Words that spell commands: none, since no row of spec/opcode_table.json has bits. The codes of directives
inside a directive packet (R182) are read in Machine/Operands.lean. -/

namespace Sys2Proof

/-- The command that a word of `nbits` bits spells by the table's bits. No row of the table gives bits. -/
def decodeTableWord (_nbits _w : Nat) : Option Instr := none

end Sys2Proof
end

