-- ==== Sys2Proof/Config.lean ====
section
/-! DEFINITION. What is fixed for the part (its capacities, R167 and 00_scope), and the free values of the model. -/

namespace Sys2Proof.Config

/-- FREE VALUE (log 3). When several steps of the part's own are possible at once, this says which is taken first: it is applied
to the count of ties so far. The spec gives the outcome of either order and fixes none. -/
opaque tieBreak : Nat → Nat

/-- FREE VALUE (log 13). What NT_now reads when running time carries its count to a figure past its 64 bits, which the spec does
not state: it is applied to that figure and kept to the 64 bits (R43). -/
opaque ntPastRange : Nat → Nat

/-- Part code (R167). -/
def partCode : Nat := 7318

/-- Revision (R167). -/
def revision : Nat := 1

/-- Station records and map entries (R1). -/
def stationSlots : Nat := 192

/-- Channels of a station (R14). -/
def channelsPerStation : Nat := 4

/-- Epoch records (R76). -/
def epochRecords : Nat := 16

/-- Pages of sample memory (R85). -/
def pages : Nat := 16384

/-- Receive FIFO of a trunk port, in packets (R103). -/
def fifoDepth : Nat := 32

/-- Inbound directive queue, in packets (R160). -/
def inboundDepth : Nat := 2

/-- Answer queue, in answers (R146). -/
def answerDepth : Nat := 4

/-- Pass-through buffer, in frames (R157). -/
def bufferDepth : Nat := 8

/-- The count of the pass-through buffer at which RELEASE is sent outward (R158). -/
def bufferRelease : Nat := 4

/-- Forward queue, in packets (R154). -/
def forwardDepth : Nat := 2

/-- The largest payload of an epoch frame, in bytes (R130). -/
def framePayload : Nat := 16384

/-- The free count at which Starved ends (R97). -/
def starvedEnd : Nat := 1024

/-- The free count below which PAGES-LOW is raised (R87). -/
def pagesLow : Nat := 256

/-- The mark timeout in nanoseconds, a fixed 1,500 ms (R43). -/
def markTimeout : Nat := 1500000000

/-- The largest pending-skip total (R83). -/
def skipMax : Nat := 65535

/-- The byte that an unlisted cell of the sample memory reads as: DESIGN CHOICE 0 (log 5). -/
def unwrittenByte : Byte := 0

end Sys2Proof.Config
end

