-- ==== Sys2Proof/Machine/State.lean ====
section
/-! DEFINITION. Every piece of state the spec gives the part, as plain data, and the state after power-on reset. -/

namespace Sys2Proof.Machine

/-- No command of this part stops: the spec names no trap, and errors are counters, flags, outcomes and discarded packets
(log 1). Nothing raises a fault; safe. -/
inductive Fault where
deriving DecidableEq, Repr

/-- Why a step has no meaning. -/
inductive Refusal where
  /-- A command not modelled yet, by its mnemonic; raised by an arm of `exec` alone. Safe: the model stops. No arm raises it. -/
  | notModelled (mnemonic : String)
deriving DecidableEq, Repr

/-- Link state of a trunk port or of the chain port (R103, R155). -/
inductive LinkState where
  | down
  | up
deriving DecidableEq, Repr

/-- A trunk port (R103). -/
structure TrunkPort where
  link           : LinkState
  /-- The link-loss timer (R107). -/
  timer          : Timer
  /-- The receive FIFO, oldest first, packets as received (R105, R106). -/
  fifo           : List (List Byte)
  goodPackets    : Counter
  lengthErrors   : Counter
  checkErrors    : Counter
  overflows      : Counter
  unknownStation : Counter
deriving DecidableEq, Repr

/-- The packet in the Acceptance Path after its correction: where it came from and what is offered to the Epoch Store (R89, R117). -/
structure InHand where
  port     : Port
  slot     : Nat
  channel  : Fin 4
  /-- Global slot G of the first sample (R64). -/
  globalSlot : Nat
  /-- Residual r in ns (R65). -/
  residual : Int
  /-- The packet's quality flag set (R67). -/
  quality  : QualitySet
  /-- The converted samples in payload order (R68, R69). -/
  samples  : List Sample
deriving DecidableEq, Repr

/-- An entry of the station map (R1). -/
structure MapEntry where
  code : Nat
  slot : Nat
deriving DecidableEq, Repr

/-- The state of a station record that is not Vacant (R6). A Vacant record is one that is not listed. -/
inductive StationState where
  | configured
  | tracking
  | silent
  | quarantined
deriving DecidableEq, Repr

/-- A route mask: the trunk ports from which a station's packets are taken (R9). -/
structure RouteMask where
  a : Bool
  b : Bool
deriving DecidableEq, Repr

/-- Sample word of a channel (R16). -/
inductive SampleWord where
  | bits16
  | bits24
  | bits32
deriving DecidableEq, Repr

/-- Sample byte order of a channel (R16). -/
inductive SampleOrder where
  | mostFirst
  | leastFirst
deriving DecidableEq, Repr

/-- A present sequence window (R119). Bit 31 of the marks is the high number and bit 31 - i is high number - i (R183). -/
structure SeqWindow where
  high     : BitVec 16
  marks    : BitVec 32
  staleRun : Nat
deriving DecidableEq, Repr

/-- A channel descriptor (R14). -/
structure Channel where
  rate       : Nat
  word       : SampleWord
  order      : SampleOrder
  window     : Option SeqWindow
  duplicates : Counter
  stale      : Counter
deriving DecidableEq, Repr

/-- Four like things, one for each channel 0 to 3. -/
structure Quad (α : Type) where
  q0 : α
  q1 : α
  q2 : α
  q3 : α
deriving DecidableEq, Repr

/-- A correction record (R24). -/
structure Correction where
  /-- ns, signed -/
  offset    : Int
  /-- ppb, signed -/
  drift     : Int
  /-- us of station time -/
  refTime   : Nat
  /-- s -/
  span      : Nat
  version   : Nat
  isDefault : Bool
  /-- us of station time -/
  switch    : Option Nat
deriving DecidableEq, Repr

/-- A previous correction record, with the E_sw kept beside it (R25). -/
structure Previous where
  record : Correction
  eSw    : Nat
deriving DecidableEq, Repr

/-- The ten station counters (R20). -/
structure StationCounters where
  accepted      : Counter
  byRoute       : Counter
  byQuarantine  : Counter
  byFormat      : Counter
  storeNotReady : Counter
  late          : Counter
  future        : Counter
  noRecord      : Counter
  noPage        : Counter
  overlap       : Counter
deriving DecidableEq, Repr

/-- A station record that is not Vacant (R6). -/
structure Station where
  code         : Nat
  state        : StationState
  mask         : RouteMask
  /-- s -/
  silenceLimit : Nat
  /-- The silence timer (R8). -/
  silence      : Timer
  channels     : Quad Channel
  current      : Correction
  previous     : Option Previous
  staged       : Option Correction
  counters     : StationCounters
deriving DecidableEq, Repr

/-- Reference state (R43). -/
inductive RefState where
  | free
  | acquiring
  | locked
  | holdover
  | failed
deriving DecidableEq, Repr

/-- The Reference Clock Unit (R43). -/
structure RefClock where
  /-- NT_now, ns, below 2^64 (R41) -/
  ntNow         : Nat
  state         : RefState
  lastSecond    : Option Nat
  goodCount     : Nat
  rejectCount   : Nat
  markTimer     : Timer
  holdoverTimer : Timer
  /-- Wl, us -/
  lockWindow    : Nat
  /-- s -/
  holdoverLimit : Nat
deriving DecidableEq, Repr

/-- Failure action of the epoch plan (R74). -/
inductive FailureAction where
  | goOn
  | withhold
deriving DecidableEq, Repr

/-- The epoch plan (R74): L and H in ms. -/
structure Plan where
  epochLength   : Nat
  windowDepth   : Nat
  hold          : Nat
  failureAction : FailureAction
deriving DecidableEq, Repr

/-- Store state (R93). -/
inductive StoreState where
  | idle
  | ready
  | starved
  | suspended
deriving DecidableEq, Repr

/-- State of an epoch record that is not Free (R76). A Free record is one that is not listed. -/
inductive RecordState where
  | opened
  | closed
  | emitting
deriving DecidableEq, Repr

/-- A station section record of a slot that was mapped at the close (R76, R82). -/
structure Section where
  code  : Nat
  state : StationState
deriving DecidableEq, Repr

/-- A segment record (R79). Page entry j names a page when j is listed in `pages`. -/
structure Segment where
  n        : Nat
  pages    : Assoc PageNo
  fill     : Nat
  /-- The slot-filled map: bit s is the mark of slot s. -/
  filled   : BitVec 512
  residual : Option Int
  quality  : QualitySet
deriving DecidableEq, Repr

/-- An epoch record that is not Free (R76). Segments are listed under 4 × slot + channel; an unlisted segment is empty with n = 0. -/
structure EpochRecord where
  state        : RecordState
  number       : Nat
  /-- Start time, ns. -/
  start        : Nat
  /-- Epoch length, ms. -/
  epochLength  : Nat
  refAtClose   : Option RefState
  storeAtClose : Option StoreState
  skipped      : Nat
  /-- Absent while Open; then by table slot, a slot Vacant at the close being unlisted. -/
  sections     : Option (Assoc Section)
  segments     : Assoc Segment
deriving DecidableEq, Repr

/-- Progress of the Emitter through its Emitting record (R127): the record's number among the sixteen, the fragment plan as
the table slots of each fragment (R130), and the next fragment index. -/
structure Emission where
  record : Nat
  plan   : List (List Nat)
  next   : Nat
deriving DecidableEq, Repr

/-- What becomes of the Emitting record when the fragment in transmission completes: it goes on (R136), or it is freed because it
was abandoned on a stall (R139) or ended by RESTART (R143). -/
inductive Fate where
  | goesOn
  | abandoned
  | restarted
deriving DecidableEq, Repr

/-- The Emitter (R127). -/
inductive Emitter where
  | idle
  | building (e : Emission)
  | sending (e : Emission) (fate : Fate)
deriving DecidableEq, Repr

/-- Hold state of the Egress Arbiter (R146). -/
inductive HoldState where
  | notHeld
  | held
deriving DecidableEq, Repr

/-- Next data source of the Egress Arbiter (R146). -/
inductive DataSource where
  | own
  | passThrough
deriving DecidableEq, Repr

/-- The four sources of outbound frames (R149). -/
inductive TxSource where
  | answer
  | notice
  | own
  | passThrough
deriving DecidableEq, Repr

/-- A frame in transmission on the centre link and its source (R146). -/
structure TxFrame where
  source : TxSource
  bytes  : List Byte
deriving DecidableEq, Repr

/-- The chain port (R155, R159). -/
structure ChainPort where
  link         : LinkState
  timer        : Timer
  /-- The pass-through buffer, oldest first (R157). -/
  buffer       : List (List Byte)
  outwardHold  : Bool
  /-- The forward queue, oldest first, packets as received (R154). -/
  forwardQueue : List (List Byte)
  /-- The packet its transmit side is sending, as sent (R154). -/
  outgoing     : Option (List Byte)
  goodFrames   : Counter
  typeErrors   : Counter
  lengthErrors : Counter
  checkErrors  : Counter
  overflows    : Counter
  forwardDrops : Counter
deriving DecidableEq, Repr

/-- A directive entry of a packet: code and parameter bytes (R162). -/
structure Entry where
  code   : Byte
  params : List Byte
deriving DecidableEq, Repr

/-- The execution of the head packet (R161): its remaining entries, the outcome entries formed so far, its tag and its
stop-on-refusal flag. -/
structure Progress where
  todo          : List Entry
  formed        : List (List Byte)
  tag           : Nat
  stopOnRefusal : Bool
deriving DecidableEq, Repr

/-- State of the Management Agent (R161). -/
inductive AgentState where
  | idle
  | waiting
  | executing (p : Progress)
  | held (p : Progress)
deriving DecidableEq, Repr

/-- The six global counters (R177). -/
structure GlobalCounters where
  packetsTaken     : Counter
  managementDrops  : Counter
  malformedPackets : Counter
  receiveErrors    : Counter
  epochsDropped    : Counter
  noticesSent      : Counter
deriving DecidableEq, Repr

/-- The whole part, and the queue of commands. -/
structure State where
  /-- The commands waiting, first in first out. -/
  pending           : List Instr
  /-- MODEL'S OWN (log 2): the running nanoseconds that one idle step may let pass. -/
  quantum           : Nat
  /-- MODEL'S OWN (log 3): how many ties the free value `Config.tieBreak` has broken. -/
  ties              : Nat
  unitAddress       : BitVec 4
  portA             : TrunkPort
  portB             : TrunkPort
  /-- Shared link-loss time, ms (R103, R110). -/
  linkLossTime      : Nat
  nextPort          : Port
  inHand            : Option InHand
  map               : List MapEntry
  /-- By table slot; an unlisted slot is Vacant. -/
  stations          : Assoc Station
  ref               : RefClock
  plan              : Plan
  store             : StoreState
  rememberedStarved : Bool
  /-- A Withhold signal that is still to take effect (R55, log 12). -/
  failureSignal     : Bool
  eLo               : Option Nat
  pendingSkip       : Nat
  /-- By record number 0 to 15; an unlisted record is Free. -/
  records           : Assoc EpochRecord
  freePages         : List PageNo
  memory            : List Host.Cell
  /-- The closed-epoch queue, as record numbers, oldest first. -/
  closedQueue       : List Nat
  emitter           : Emitter
  /-- Stall expiries to be handled under R140 when the last fragment completes (R139, R141, log 10). -/
  deferredExpiries  : Nat
  hold              : HoldState
  stallTimer        : Timer
  /-- s (R110, R146) -/
  stallLimit        : Nat
  answerQueue       : List (List Byte)
  /-- The cause set of the pending notice, if one is pending (R175). -/
  noticeSlot        : Option FlagSet
  nextData          : DataSource
  transmitting      : Option TxFrame
  chain             : ChainPort
  inbound           : List (List Byte)
  agent             : AgentState
  flags             : FlagSet
  noticeMask        : FlagSet
  globals           : GlobalCounters
deriving DecidableEq, Repr

/-- A trunk port after power-on reset (R103). -/
def TrunkPort.reset : TrunkPort :=
  { link := .down, timer := none, fifo := [], goodPackets := 0, lengthErrors := 0, checkErrors := 0, overflows := 0,
    unknownStation := 0 }

/-- The Reference Clock Unit after power-on reset (R43). -/
def RefClock.reset : RefClock :=
  { ntNow := 0, state := .free, lastSecond := none, goodCount := 0, rejectCount := 0, markTimer := none,
    holdoverTimer := none, lockWindow := 10, holdoverLimit := 600 }

/-- The epoch plan after power-on reset (R74). -/
def Plan.reset : Plan := { epochLength := 1000, windowDepth := 4, hold := 2000, failureAction := .goOn }

/-- The chain port after power-on reset (R155). -/
def ChainPort.reset : ChainPort :=
  { link := .down, timer := none, buffer := [], outwardHold := false, forwardQueue := [], outgoing := none, goodFrames := 0,
    typeErrors := 0, lengthErrors := 0, checkErrors := 0, overflows := 0, forwardDrops := 0 }

/-- The global counters after power-on reset and after RESTART (R177, R178). -/
def GlobalCounters.reset : GlobalCounters :=
  { packetsTaken := 0, managementDrops := 0, malformedPackets := 0, receiveErrors := 0, epochsDropped := 0, noticesSent := 0 }

/-- `count` pages in ascending number from `first`. -/
def pagesFrom : (count first : Nat) → List PageNo
  | 0, _ => []
  | k + 1, i => BitVec.ofNat 14 i :: pagesFrom k (i + 1)

/-- The part right after power-on reset with its straps reading 0 (R1, R23, R43, R74, R76, R85, R93, R103, R112, R113, R127, R146,
R155, R160, R161, R172, R174, R175, R177). The straps' value, the quantum and the tie count are the model's (log 4, 2, 3). -/
def State.reset : State :=
  { pending := [], quantum := 1, ties := 0, unitAddress := 0, portA := TrunkPort.reset, portB := TrunkPort.reset,
    linkLossTime := 1000, nextPort := .a, inHand := none, map := [], stations := [], ref := RefClock.reset,
    plan := Plan.reset, store := .idle, rememberedStarved := false, failureSignal := false, eLo := none, pendingSkip := 0,
    records := [], freePages := pagesFrom 16384 0, memory := [], closedQueue := [], emitter := .idle,
    deferredExpiries := 0, hold := .notHeld, stallTimer := none, stallLimit := 10, answerQueue := [], noticeSlot := none,
    nextData := .own, transmitting := none, chain := ChainPort.reset, inbound := [], agent := .idle, flags := 0,
    noticeMask := 0, globals := GlobalCounters.reset }

end Sys2Proof.Machine
end

