-- ==== Sys2Proof/Machine/Ops.lean ====
section
/-! DEFINITION. The named operations over the state: sparse data, bytes, counters, timers, ports, station records, sample memory. -/

namespace Sys2Proof.Machine

/-- The three outcomes of a command of this part. -/
abbrev Result := Host.Outcome State Fault Refusal

/-! ## Sparse data by key -/

/-- What key `k` holds. -/
def assocGet {α : Type} : Assoc α → Nat → Option α
  | [], _ => none
  | (j, v) :: t, k => if k = j then some v else assocGet t k

/-- Key `k` holds `v`; keys stay in rising order. -/
def assocPut {α : Type} : Assoc α → Nat → α → Assoc α
  | [], k, v => [(k, v)]
  | (j, w) :: t, k, v => if k < j then (k, v) :: (j, w) :: t else if k = j then (k, v) :: t else (j, w) :: assocPut t k v

/-- Key `k` holds nothing. -/
def assocErase {α : Type} : Assoc α → Nat → Assoc α
  | [], _ => []
  | (j, w) :: t, k => if k = j then assocErase t k else (j, w) :: assocErase t k

/-- Every value through `f`, keys as they are. -/
def assocMap {α : Type} (f : α → α) : Assoc α → Assoc α
  | [] => []
  | (j, w) :: t => (j, f w) :: assocMap f t

/-- Keys strictly rising. -/
def assocSorted {α : Type} : Assoc α → Bool
  | [] => true
  | (j, _) :: t => t.all (fun p => decide (j < p.1)) && assocSorted t

/-! ## Bytes -/

/-- The number a run of bytes spells, most significant byte first (R180). -/
def beNat (bs : List Byte) : Nat := bs.foldl (fun acc b => acc * 256 + b.toNat) 0

/-- `k` bytes of `v`, most significant first (R180). -/
def beBytes : (k v : Nat) → List Byte
  | 0, _ => []
  | k + 1, v => BitVec.ofNat 8 (v / 256 ^ k) :: beBytes k v

/-- `k` bytes of a signed `v` in two's complement (R180). -/
def beInt (k : Nat) (v : Int) : List Byte := beBytes k (v % (256 ^ k : Nat)).toNat

/-- A Boolean field of one byte. -/
def flagByte (b : Bool) : List Byte := [if b then 1 else 0]

/-- `k` reserved bytes, sent as zero (R180). -/
def zeroBytes (k : Nat) : List Byte := List.replicate k 0

/-- The field of `len` bytes at offset `off`. -/
def fieldAt (bs : List Byte) (off len : Nat) : Nat := beNat ((bs.drop off).take len)

/-- A field of `bits` bits read as two's complement (R180). -/
def signedOf (bits n : Nat) : Int := if n < 2 ^ (bits - 1) then (n : Int) else (n : Int) - (2 ^ bits : Nat)

/-! ## Counters, timers, lengths -/

/-- A counter raised by `n`, staying at its greatest value (R22, R111, R159, R177). -/
def bump (c : Counter) (n : Nat := 1) : Counter := min (c + n) counterMax

/-- A timer after `d` ns of running time (R41). -/
def runTimer (d : Nat) (t : Timer) : Timer := t.map (· + d)

/-- Whether a timer has run for at least `limit` ns. -/
def timerDue (limit : Nat) : Timer → Bool
  | none => false
  | some e => decide (limit ≤ e)

/-- Whether a list has at least `n` members. It looks at no more than `n` of them. -/
def atLeast {α : Type} : Nat → List α → Bool
  | 0, _ => true
  | _ + 1, [] => false
  | n + 1, _ :: t => atLeast n t

/-! ## Four channels -/

/-- The thing of channel `c`. -/
def Quad.get {α : Type} (q : Quad α) : Fin 4 → α
  | 0 => q.q0
  | 1 => q.q1
  | 2 => q.q2
  | 3 => q.q3

/-- The thing of channel `c` replaced. -/
def Quad.set {α : Type} (q : Quad α) (c : Fin 4) (v : α) : Quad α :=
  match c with
  | 0 => { q with q0 := v }
  | 1 => { q with q1 := v }
  | 2 => { q with q2 := v }
  | 3 => { q with q3 := v }

/-- Every channel's thing through `f`. -/
def Quad.mapAll {α β : Type} (f : α → β) (q : Quad α) : Quad β := ⟨f q.q0, f q.q1, f q.q2, f q.q3⟩

/-- In channel order 0 to 3. -/
def Quad.toList {α : Type} (q : Quad α) : List α := [q.q0, q.q1, q.q2, q.q3]

/-! ## Trunk ports -/

/-- The trunk port `p`. -/
def State.trunk (s : State) : Port → TrunkPort
  | .a => s.portA
  | .b => s.portB

/-- The trunk port `p` replaced. -/
def State.setTrunk (s : State) (p : Port) (t : TrunkPort) : State :=
  match p with
  | .a => { s with portA := t }
  | .b => { s with portB := t }

/-- The other trunk port. -/
def otherPort : Port → Port
  | .a => .b
  | .b => .a

/-- Whether a route mask names port `p` (R9). -/
def RouteMask.has (m : RouteMask) : Port → Bool
  | .a => m.a
  | .b => m.b

/-- A link state as a Boolean: Up. -/
def LinkState.isUp : LinkState → Bool
  | .up => true
  | .down => false

/-! ## Station records -/

/-- The record of table slot `slot`; `none` is Vacant (R6). -/
def State.station (s : State) (slot : Nat) : Option Station := assocGet s.stations slot

/-- The record of `slot` replaced. -/
def State.putStation (s : State) (slot : Nat) (st : Station) : State := { s with stations := assocPut s.stations slot st }

/-- The record of `slot` through `f`, if the slot is not Vacant. -/
def State.modifyStation (s : State) (slot : Nat) (f : Station → Station) : State :=
  match s.station slot with
  | some st => s.putStation slot (f st)
  | none => s

/-- Whether the Acceptance Path holds a packet of the station of `slot` (R13). -/
def State.handles (s : State) (slot : Nat) : Bool :=
  match s.inHand with
  | some p => decide (p.slot = slot)
  | none => false

/-- Whether the Management Agent is Held: its current directive waits for an event at another block (R161). -/
def AgentState.isHeld : AgentState → Bool
  | .held _ => true
  | .idle => false
  | .waiting => false
  | .executing _ => false

/-- Whether the Acceptance Path may take a packet: it holds none (R112), no directive waits, and no Withhold suspension is still to
take effect. A waiting directive takes effect when the handling it waited for ends, before the next packet's lookup (R13, R38, R118;
log 9); so does a suspension, which only a placement under way delays (R55; log 12). -/
def State.pathFree (s : State) : Bool := s.inHand.isNone && !s.agent.isHeld && !s.failureSignal

/-- The default correction record (R26). -/
def Correction.default : Correction :=
  { offset := 0, drift := 0, refTime := 0, span := 86400, version := 0, isDefault := true, switch := none }

/-- A channel descriptor as MAP-STATION gives it (R4). -/
def Channel.fresh : Channel :=
  { rate := 0, word := .bits32, order := .mostFirst, window := none, duplicates := 0, stale := 0 }

/-- Station counters all 0 (R4, R23). -/
def StationCounters.zero : StationCounters :=
  { accepted := 0, byRoute := 0, byQuarantine := 0, byFormat := 0, storeNotReady := 0, late := 0, future := 0, noRecord := 0,
    noPage := 0, overlap := 0 }

/-- Every previous correction record whose E_sw lies below `lo` is retired (R33). -/
def retireBelow (lo : Nat) (st : Station) : Station :=
  match st.previous with
  | some p => if p.eSw < lo then { st with previous := none } else st
  | none => st

/-- The previous correction record, if any, is retired (R34). -/
def retirePrevious (st : Station) : Station := { st with previous := none }

/-- One station counter raised (R20). -/
def Station.count (st : Station) (f : StationCounters → StationCounters) : Station := { st with counters := f st.counters }

/-! ## Sample memory -/

/-- The byte at address `a`. -/
def readByte (m : List Host.Cell) (a : Nat) : Byte := (assocGet m a).getD Config.unwrittenByte

/-- The byte at address `a` replaced, in canonical form. -/
def writeByte (m : List Host.Cell) (a : Nat) (b : Byte) : List Host.Cell :=
  if b = Config.unwrittenByte then assocErase m a else assocPut m a b

/-- The canonical form: addresses strictly rising, no entry equal to what an unlisted address reads as. -/
def Memory.wf (m : List Host.Cell) : Bool := assocSorted m && m.all (fun c => decide (c.2 ≠ Config.unwrittenByte))

/-- The address of word `w` of page `p` (R85). The spec does not address bytes: log 6. -/
def wordAddress (p : PageNo) (w : Nat) : Nat := p.toNat * 256 + w * 4

/-- The word at address `a`, most significant byte first (log 6). -/
def readWord (m : List Host.Cell) (a : Nat) : Sample :=
  readByte m a ++ readByte m (a + 1) ++ readByte m (a + 2) ++ readByte m (a + 3)

/-- The word at address `a` replaced. -/
def writeWord (m : List Host.Cell) (a : Nat) (v : Sample) : List Host.Cell :=
  writeByte (writeByte (writeByte (writeByte m a (v.extractLsb' 24 8)) (a + 1) (v.extractLsb' 16 8)) (a + 2)
    (v.extractLsb' 8 8)) (a + 3) (v.extractLsb' 0 8)

end Sys2Proof.Machine
end

