-- ==== Sys2Proof/Machine/Flags.lean ====
section
/-! DEFINITION. The event flags, the notice slot, the quality flags, and the codes of states and outcomes (R172 to R175, R181). -/

namespace Sys2Proof.Machine

/-- The twelve event flags (R172), in the order of their bits (R181). -/
inductive EventFlag where
  | refChange
  | refFailed
  | storeStarved
  | storeWithheld
  | pagesLow
  | windowShort
  | trunkADown
  | trunkBDown
  | stationSilent
  | emitDrop
  | skippedEpochs
  | mgmtDrop
deriving DecidableEq, Repr

/-- The flag alone, as a flag set (R181). -/
def EventFlag.bit : EventFlag → FlagSet
  | .refChange => 0x001
  | .refFailed => 0x002
  | .storeStarved => 0x004
  | .storeWithheld => 0x008
  | .pagesLow => 0x010
  | .windowShort => 0x020
  | .trunkADown => 0x040
  | .trunkBDown => 0x080
  | .stationSilent => 0x100
  | .emitDrop => 0x200
  | .skippedEpochs => 0x400
  | .mgmtDrop => 0x800

/-- Whether a flag set holds a flag. -/
def hasFlag (fs : FlagSet) (f : EventFlag) : Bool := decide (fs &&& f.bit ≠ 0)

/-- Raise a flag (R172). A change from clear to set of a flag in the notice mask places a notice or joins the cause set of the
pending one (R175). -/
def State.raise (s : State) (f : EventFlag) : State :=
  if hasFlag s.flags f then s
  else
    { s with
      flags := s.flags ||| f.bit
      noticeSlot := if hasFlag s.noticeMask f then some (s.noticeSlot.getD 0 ||| f.bit) else s.noticeSlot }

/-- TRUNK-A-DOWN or TRUNK-B-DOWN (R109). -/
def trunkDownFlag : Port → EventFlag
  | .a => .trunkADown
  | .b => .trunkBDown

/-! ## Quality flags (R67, layout of the segment flags in the channel header) -/

def Quality.uncorrected : QualitySet := 0x01
def Quality.extrapolated : QualitySet := 0x02
def Quality.previous : QualitySet := 0x04
def Quality.overlap : QualitySet := 0x08
def Quality.clamped : QualitySet := 0x10
def Quality.stationUnlocked : QualitySet := 0x20

/-- A quality flag under a condition. -/
def flagIf (c : Bool) (f : QualitySet) : QualitySet := if c then f else 0

/-! ## Codes (R181) -/

/-- Station state code; Vacant is `none`. -/
def stationCode : Option StationState → Nat
  | none => 0
  | some .configured => 1
  | some .tracking => 2
  | some .silent => 3
  | some .quarantined => 4

def RefState.toCode : RefState → Nat
  | .free => 0
  | .acquiring => 1
  | .locked => 2
  | .holdover => 3
  | .failed => 4

def StoreState.toCode : StoreState → Nat
  | .idle => 0
  | .ready => 1
  | .starved => 2
  | .suspended => 3

def FailureAction.toCode : FailureAction → Nat
  | .goOn => 0
  | .withhold => 1

def SampleWord.toCode : SampleWord → Nat
  | .bits16 => 0
  | .bits24 => 1
  | .bits32 => 2

def SampleOrder.toCode : SampleOrder → Nat
  | .mostFirst => 0
  | .leastFirst => 1

def LinkState.toCode : LinkState → Nat
  | .down => 0
  | .up => 1

def Emitter.toCode : Emitter → Nat
  | .idle => 0
  | .building _ => 1
  | .sending _ _ => 2

def RouteMask.toCode (m : RouteMask) : Nat := (if m.a then 1 else 0) + (if m.b then 2 else 0)

/-- The outcomes of a directive (R163). -/
inductive DirOutcome where
  | done
  | noEffect
  | refusedState
  | refusedRange
  | refusedBusy
  | refusedTarget
  | unknown
  | malformed
  | notRun
deriving DecidableEq, Repr

def DirOutcome.toCode : DirOutcome → Nat
  | .done => 0
  | .noEffect => 1
  | .refusedState => 2
  | .refusedRange => 3
  | .refusedBusy => 4
  | .refusedTarget => 5
  | .unknown => 6
  | .malformed => 7
  | .notRun => 8

/-- The outcomes that end a packet under stop-on-refusal (R164). -/
def DirOutcome.stops : DirOutcome → Bool
  | .refusedState | .refusedRange | .refusedBusy | .refusedTarget | .unknown | .malformed => true
  | .done | .noEffect | .notRun => false

end Sys2Proof.Machine
end

