-- ==== Sys2Proof/Machine/Operands.lean ====
section
/-! DEFINITION. Reading operands: check fields (R71, R72), station packets, directive packets and their parameters
(11_formats_on_the_links), rate codes (R15). -/

namespace Sys2Proof.Machine

/-! ## Check fields -/

/-- Ones'-complement addition of 16-bit words (R71). -/
def onesAdd (a w : Nat) : Nat := if a + w < 65536 then a + w else a + w - 65535

/-- The check sum of a run of bytes onto a running total, an odd last byte padded with 0 (R71). -/
def checkSum : (total : Nat) → List Byte → Nat
  | t, [] => t
  | t, [x] => onesAdd t (x.toNat * 256)
  | t, x :: y :: rest => checkSum (onesAdd t (x.toNat * 256 + y.toNat)) rest

/-- A packet or frame with its check field (R71, R73). -/
def withCheck (body : List Byte) : List Byte := body ++ beBytes 2 (65535 - checkSum 0 body)

/-- The check of a receiving port (R72). -/
def checkPasses (arrival : List Byte) : Bool :=
  decide (onesAdd (checkSum 0 (arrival.take (arrival.length - 2))) (beNat (arrival.drop (arrival.length - 2))) = 65535)

/-- The type field (R180). -/
def typeOf (arrival : List Byte) : Option Nat := arrival.head?.map (·.toNat)

/-- The length field (R180). -/
def lengthField (arrival : List Byte) : Nat := fieldAt arrival 1 2

/-- The payload: what stands between a header of `header` bytes and the check field (R180). -/
def payloadOf (header : Nat) (arrival : List Byte) : List Byte := (arrival.drop header).take (arrival.length - header - 2)

/-! ## Station packets -/

/-- The fields of a station packet (11, "Station packet"). -/
structure StationPacket where
  code     : Nat
  channel  : Nat
  restart  : Bool
  unlocked : Bool
  sequence : BitVec 16
  time     : Nat
  count    : Nat
  length   : Nat
  payload  : List Byte
deriving DecidableEq, Repr

/-- A station packet read from its bytes. -/
def readStationPacket (bs : List Byte) : StationPacket :=
  let flags := fieldAt bs 6 1
  { code := fieldAt bs 3 2, channel := fieldAt bs 5 1, restart := flags.testBit 0, unlocked := flags.testBit 1,
    sequence := BitVec.ofNat 16 (fieldAt bs 7 2), time := fieldAt bs 9 6, count := fieldAt bs 15 1,
    length := lengthField bs, payload := payloadOf 16 bs }

/-! ## Rates -/

/-- The rate in hertz of a rate code; 0 for none (00_scope, "Rates"). -/
def rateHz : Nat → Nat
  | 1 => 1
  | 2 => 10
  | 3 => 20
  | 4 => 40
  | 5 => 50
  | 6 => 100
  | 7 => 200
  | 8 => 250
  | 9 => 500
  | 10 => 1000
  | _ => 0

/-- The period P in ns of a rate code (00_scope, "Rates"). -/
def periodNs (rate : Nat) : Nat := nsPerSecond / rateHz rate

/-- Samples per epoch n of a rate code under epoch length L in ms, if the code fits L (R15). -/
def samplesPerEpoch (rate l : Nat) : Option Nat :=
  if rate = 0 then some 0
  else
    let m := rateHz rate * l
    if m % 1000 = 0 ∧ 1 ≤ m / 1000 ∧ m / 1000 ≤ 512 then some (m / 1000) else none

/-- n of a channel under L, 0 where the code does not fit (which no channel in force does, R15). -/
def nOf (rate l : Nat) : Nat := (samplesPerEpoch rate l).getD 0

/-- The rate code whose samples per epoch under L are n (R134). -/
def rateCodeOf (n l : Nat) : Nat := ([1, 2, 3, 4, 5, 6, 7, 8, 9, 10].find? (fun r => samplesPerEpoch r l == some n)).getD 0

/-- The width in bytes of a sample word (R16). -/
def SampleWord.width : SampleWord → Nat
  | .bits16 => 2
  | .bits24 => 3
  | .bits32 => 4

/-! ## Directive packets -/

/-- The entries of a payload, each located from the one before it; `none` if they do not exactly fill it (R162). The fuel is the
payload's length. -/
def readEntries : (fuel : Nat) → List Byte → Option (List Entry)
  | _, [] => some []
  | 0, _ :: _ => none
  | _ + 1, [_] => none
  | k + 1, code :: len :: rest =>
    if len.toNat ≤ rest.length then
      (readEntries k (rest.drop len.toNat)).map (fun es => { code := code, params := rest.take len.toNat } :: es)
    else none

/-- The entries of a directive packet whose structure is sound (R162). -/
def soundEntries (packet : List Byte) : Option (List Entry) :=
  let payload := payloadOf 10 packet
  let count := fieldAt packet 7 1
  match readEntries payload.length payload with
  | some es => if count ≤ 16 ∧ es.length = count then some es else none
  | none => none

/-- The destination, bits 0 to 4 of its byte (R181). -/
def destinationOf (packet : List Byte) : Nat := fieldAt packet 3 1 % 32

/-- The hop count, bits 0 to 3 of its byte (R181). -/
def hopCountOf (packet : List Byte) : Nat := fieldAt packet 4 1 % 16

def tagOf (packet : List Byte) : Nat := fieldAt packet 5 2

def stopOnRefusalOf (packet : List Byte) : Bool := (fieldAt packet 8 1).testBit 0

/-- The packet as it is forwarded: hop count lowered by one, reserved bits of its byte zero, a new check field (R73, R182). -/
def forwardImage (packet : List Byte) : List Byte :=
  let body := packet.take (packet.length - 2)
  withCheck (body.take 4 ++ beBytes 1 (hopCountOf packet - 1) ++ body.drop 5)

/-! ## Parameters of directives (R182, R181) -/

def readRouteMask (b : Nat) : RouteMask := { a := b.testBit 0, b := b.testBit 1 }

def readSampleWord : Nat → Option SampleWord
  | 0 => some .bits16
  | 1 => some .bits24
  | 2 => some .bits32
  | _ => none

def readSampleOrder : Nat → Option SampleOrder
  | 0 => some .mostFirst
  | 1 => some .leastFirst
  | _ => none

def readFailureAction : Nat → Option FailureAction
  | 0 => some .goOn
  | 1 => some .withhold
  | _ => none

/-- A flag set of two bytes, bits 12 to 15 ignored (R173, R174, R181). -/
def readFlagSet (params : List Byte) : FlagSet := BitVec.ofNat 12 (fieldAt params 0 2)

/-- The scopes of READ-COUNTERS (R169, R181). -/
inductive Scope where
  | port (p : Port)
  | chain
  | station
  | global
deriving DecidableEq, Repr

def readScope : Nat → Option Scope
  | 0 => some (.port .a)
  | 1 => some (.port .b)
  | 2 => some .chain
  | 3 => some .station
  | 4 => some .global
  | _ => none

/-- The code and parameter length of each directive (R182). -/
def directiveCode : Instr → Option (Nat × Nat)
  | .identify => some (0x01, 0)
  | .setPlan => some (0x02, 6)
  | .setReference => some (0x03, 6)
  | .setLinks => some (0x04, 3)
  | .mapStation => some (0x05, 6)
  | .unmapStation => some (0x06, 1)
  | .setChannel => some (0x07, 5)
  | .stageCorrection => some (0x08, 25)
  | .commitCorrection => some (0x09, 7)
  | .discardStaged => some (0x0A, 1)
  | .quarantine => some (0x0B, 1)
  | .unquarantine => some (0x0C, 1)
  | .readStation => some (0x0D, 1)
  | .readCounters => some (0x0E, 3)
  | .readStore => some (0x0F, 0)
  | .readFlags => some (0x10, 0)
  | .clearFlags => some (0x11, 2)
  | .setNoticeMask => some (0x12, 2)
  | .storeStart => some (0x13, 0)
  | .storeStop => some (0x14, 0)
  | .storeSuspend => some (0x15, 0)
  | .storeResume => some (0x16, 0)
  | .restart => some (0x17, 0)
  | .powerOnReset _ | .packetArrival _ _ | .lossOfSignalIndication _ | .linkLossTimerExpiry _ | .arbiterTake | .handOff
  | .silenceTimerExpiry _ | .timeMark _ | .markTimerExpiry | .holdoverTimerExpiry | .withholdSuspension | .closeTimeReached
  | .stallTimerExpiry | .directivePacketArrival _ | .forwardComplete | .hold | .release | .frameArrival _
  | .chainLossOfSignal | .chainLinkLossTimerExpiry | .grant | .fragmentCompletion | .answerCompletion
  | .passThroughCompletion | .noticeCompletion | .beginPacket | .unknown => none

/-- The command by which the agent takes an entry of a given code (R163); UNKNOWN for a code outside the table. -/
def commandOf : (code : Nat) → Instr
  | 0x01 => .identify
  | 0x02 => .setPlan
  | 0x03 => .setReference
  | 0x04 => .setLinks
  | 0x05 => .mapStation
  | 0x06 => .unmapStation
  | 0x07 => .setChannel
  | 0x08 => .stageCorrection
  | 0x09 => .commitCorrection
  | 0x0A => .discardStaged
  | 0x0B => .quarantine
  | 0x0C => .unquarantine
  | 0x0D => .readStation
  | 0x0E => .readCounters
  | 0x0F => .readStore
  | 0x10 => .readFlags
  | 0x11 => .clearFlags
  | 0x12 => .setNoticeMask
  | 0x13 => .storeStart
  | 0x14 => .storeStop
  | 0x15 => .storeSuspend
  | 0x16 => .storeResume
  | 0x17 => .restart
  | _ => .unknown

end Sys2Proof.Machine
end

