-- ==== Sys2Proof/Machine/Arithmetic.lean ====
section
/-! DEFINITION. The Correction Unit (R58 to R70): station time to network time, global slot, residual, quality flags and samples. -/

namespace Sys2Proof.Machine

/-- Stage 1: the elapsed time, signed us (R60). -/
def elapsedUs (c : Correction) (st : Nat) : Int := (st : Int) - (c.refTime : Int)

/-- The record's span in us (R61). -/
def spanUs (c : Correction) : Int := (c.span : Int) * 1000000

/-- Stage 2: the span clamp (R61). -/
def clampToSpan (span d : Int) : Int := if span < d then span else if d < -span then -span else d

/-- Whether the span clamp limits the elapsed time, which gives EXTRAPOLATED (R61). -/
def isExtrapolated (c : Correction) (st : Nat) : Bool :=
  decide (spanUs c < elapsedUs c st ∨ elapsedUs c st < -spanUs c)

/-- Stage 3: the drift term in ns, rounded to the nearest with ties away from zero (R62). -/
def driftTerm (clamped drift : Int) : Int :=
  let p := clamped * drift
  let m : Int := ((p.natAbs + 500000) / 1000000 : Nat)
  if p < 0 then -m else m

/-- The sum of stage 4 before its clamp at zero (R63). -/
def netSum (c : Correction) (st : Nat) : Int :=
  (st : Int) * 1000 + c.offset + driftTerm (clampToSpan (spanUs c) (elapsedUs c st)) c.drift

/-- Stage 4: network time, a negative sum clamped to 0 (R63). -/
def netTime (c : Correction) (st : Nat) : Nat := (netSum c st).toNat

/-- Stage 5: the nearest global slot of period `p`, ties to the later one (R64). -/
def globalSlotOf (nt p : Nat) : Nat := (nt + p / 2) / p

/-- Stage 6: the residual (R65). -/
def residualOf (nt p : Nat) : Int := (nt : Int) - ((globalSlotOf nt p * p : Nat) : Int)

/-- The word of a sample, its bytes in the channel's order (R68). -/
def assembleWord (order : SampleOrder) (bs : List Byte) : Nat :=
  match order with
  | .mostFirst => beNat bs
  | .leastFirst => beNat bs.reverse

/-- A word of a width sign-extended to 32 bits (R68). -/
def extendWord (word : SampleWord) (w : Nat) : Sample :=
  match word with
  | .bits16 => (BitVec.ofNat 16 w).signExtend 32
  | .bits24 => (BitVec.ofNat 24 w).signExtend 32
  | .bits32 => BitVec.ofNat 32 w

/-- The absent mark, -2,147,483,648 (R69). -/
def absentMark : Sample := 0x80000000

/-- The clamp that keeps the absent mark out of the store (R69). -/
def clampSample (v : Sample) : Sample := if v = absentMark then 0x80000001 else v

/-- `count` sample words of a payload, sign-extended, before the clamp (R68). -/
def rawSamples (word : SampleWord) (order : SampleOrder) : (count : Nat) → List Byte → List Sample
  | 0, _ => []
  | k + 1, bs => extendWord word (assembleWord order (bs.take word.width)) :: rawSamples word order k (bs.drop word.width)

/-- What the Correction Unit returns for a packet (R58). -/
structure Corrected where
  globalSlot : Nat
  residual   : Int
  quality    : QualitySet
  samples    : List Sample
deriving DecidableEq, Repr

/-- The record selected for a packet of station time `st`, and whether it is the previous one (R36). -/
def selectRecord (s : Station) (st : Nat) : Correction × Bool :=
  match s.previous, s.current.switch with
  | some p, some sw => if st < sw then (p.record, true) else (s.current, false)
  | _, _ => (s.current, false)

/-- The computation of a packet (R59, R67). -/
def correctPacket (record : Correction) (isPrevious : Bool) (ch : Channel) (pk : StationPacket) : Corrected :=
  let nt := netTime record pk.time
  let p := periodNs ch.rate
  let raw := rawSamples ch.word ch.order pk.count pk.payload
  { globalSlot := globalSlotOf nt p
    residual := residualOf nt p
    quality := flagIf isPrevious Quality.previous ||| flagIf record.isDefault Quality.uncorrected
      ||| flagIf pk.unlocked Quality.stationUnlocked ||| flagIf (isExtrapolated record pk.time) Quality.extrapolated
      ||| flagIf (decide (netSum record pk.time < 0)) Quality.clamped
      ||| flagIf (raw.any (fun v => decide (v = absentMark))) Quality.clamped
    samples := raw.map clampSample }

end Sys2Proof.Machine
end

