-- ==== Sys2Proof/Machine/Store.lean ====
section
/-! DEFINITION. The Epoch Store: records and window (R76 to R84), pages (R85 to R88), placement (R89 to R91), store states. -/

namespace Sys2Proof.Machine

/-! ## Plan and times -/

/-- The epoch length in ns. -/
def Plan.epochNs (p : Plan) : Nat := p.epochLength * nsPerMs

/-- The hold allowance in ns. -/
def Plan.holdNs (p : Plan) : Nat := p.hold * nsPerMs

/-- The close time of epoch e (R80). -/
def Plan.closeTime (p : Plan) (e : Nat) : Nat := (e + 1) * p.epochNs + p.holdNs

/-- E_first: the smallest epoch number whose close time lies above `nt` (R81). -/
def Plan.firstEpoch (p : Plan) (nt : Nat) : Nat := if nt < p.holdNs then 0 else (nt - p.holdNs) / p.epochNs

/-- Whether the store is in a given state. -/
def State.storeIs (s : State) (x : StoreState) : Bool := decide (s.store = x)

/-! ## Records -/

/-- Whether a record is in a given state. -/
def EpochRecord.inState (r : EpochRecord) (x : RecordState) : Bool := decide (r.state = x)

/-- The number of records in a given state. -/
def State.countRecords (s : State) (x : RecordState) : Nat := s.records.countP (fun p => p.2.inState x)

/-- k, the number of Open records (R80). -/
def State.openCount (s : State) : Nat := s.countRecords .opened

/-- The lowest-numbered Free record (R77). -/
def freeRecordNo (rs : Assoc EpochRecord) : Option Nat :=
  [0, 1, 2, 3, 4, 5, 6, 7, 8, 9, 10, 11, 12, 13, 14, 15].find? (fun i => (assocGet rs i).isNone)

/-- The Open record of epoch e, with its record number. -/
def openRecord (rs : Assoc EpochRecord) (e : Nat) : Option (Nat × EpochRecord) :=
  rs.find? (fun p => p.2.inState .opened && decide (p.2.number = e))

/-- Insertion by epoch number. -/
def insertByEpoch (x : Nat × EpochRecord) : List (Nat × EpochRecord) → List (Nat × EpochRecord)
  | [] => [x]
  | y :: t => if x.2.number ≤ y.2.number then x :: y :: t else y :: insertByEpoch x t

/-- Records in increasing epoch number (R88). -/
def byEpoch : List (Nat × EpochRecord) → List (Nat × EpochRecord)
  | [] => []
  | x :: t => insertByEpoch x (byEpoch t)

/-- The Open records in increasing epoch number. -/
def State.openRecords (s : State) : List (Nat × EpochRecord) := byEpoch (s.records.filter (fun p => p.2.inState .opened))

/-- One record through `f`. -/
def State.modifyRecord (s : State) (i : Nat) (f : EpochRecord → EpochRecord) : State :=
  match assocGet s.records i with
  | some r => { s with records := assocPut s.records i (f r) }
  | none => s

/-! ## Segments -/

/-- The key of a segment. -/
def segmentKey (slot : Nat) (c : Fin 4) : Nat := slot * 4 + c.val

/-- An empty segment of n slots (R78). -/
def Segment.empty (n : Nat) : Segment := { n := n, pages := [], fill := 0, filled := 0, residual := none, quality := 0 }

/-- The segment of a channel of a slot; unlisted is empty with n = 0. -/
def EpochRecord.segment (r : EpochRecord) (slot : Nat) (c : Fin 4) : Segment :=
  (assocGet r.segments (segmentKey slot c)).getD (Segment.empty 0)

/-- A segment replaced; an empty one with n = 0 is not listed. -/
def EpochRecord.putSegment (r : EpochRecord) (slot : Nat) (c : Fin 4) (g : Segment) : EpochRecord :=
  { r with
    segments :=
      if g = Segment.empty 0 then assocErase r.segments (segmentKey slot c)
      else assocPut r.segments (segmentKey slot c) g }

/-- The empty segments that a station's channels have in an epoch opened under L (R78). -/
def openingSegments (l slot : Nat) (st : Station) : Assoc Segment :=
  ([0, 1, 2, 3] : List (Fin 4)).filterMap (fun c =>
    let n := nOf (st.channels.get c).rate l
    if n = 0 then none else some (segmentKey slot c, Segment.empty n))

/-- An epoch record as it is opened (R78). -/
def openedRecord (s : State) (e : Nat) : EpochRecord :=
  { state := .opened, number := e, start := e * s.plan.epochNs, epochLength := s.plan.epochLength, refAtClose := none,
    storeAtClose := none, skipped := 0, sections := none,
    segments := s.stations.flatMap (fun p => openingSegments s.plan.epochLength p.1 p.2) }

/-- Epoch e opened in record i (R78). -/
def State.openEpoch (s : State) (i e : Nat) : State := { s with records := assocPut s.records i (openedRecord s e) }

/-- Front epochs opened one at a time from `lo` until k = W or no record is Free; in the last case WINDOW-SHORT (R84). The
fuel is above the number of records. -/
def openFronts (lo : Nat) : (fuel : Nat) → State → State
  | 0, s => s
  | k + 1, s =>
    if s.openCount < s.plan.windowDepth then
      match freeRecordNo s.records with
      | some i => openFronts lo k (s.openEpoch i (lo + s.openCount))
      | none => s.raise .windowShort
    else s

/-- The one front epoch that a record becoming Free opens while k is below W and the store is not Idle (R84, R137). -/
def State.openFrontAfterFree (s : State) : State :=
  match s.eLo, freeRecordNo s.records with
  | some lo, some i =>
    if s.store ≠ .idle ∧ s.openCount < s.plan.windowDepth then s.openEpoch i (lo + s.openCount) else s
  | _, _ => s

/-! ## Pages -/

/-- The pages a segment names, in ascending entry number (R88). -/
def Segment.pageList (g : Segment) : List PageNo := g.pages.map (·.2)

/-- The pages a record's segments name, in ascending table slot, then channel, then entry (R88). -/
def EpochRecord.pageList (r : EpochRecord) : List PageNo := r.segments.flatMap (fun p => p.2.pageList)

/-- Pages join the tail of the free-page list (R88). -/
def State.returnPages (s : State) (ps : List PageNo) : State := { s with freePages := s.freePages ++ ps }

/-- A freeing completes: a Starved store with at least 1,024 pages free returns to Ready (R97). One that a Withhold signal is still
to suspend was Starved at the signal and keeps it to be remembered (R55, log 12). -/
def State.endStarved (s : State) : State :=
  if s.store = .starved ∧ s.failureSignal = false ∧ atLeast Config.starvedEnd s.freePages then { s with store := .ready } else s

/-- A record becomes Free, its pages returned first (R76, R88). -/
def State.dropRecord (s : State) (i : Nat) : State :=
  match assocGet s.records i with
  | some r => { s.returnPages r.pageList with records := assocErase s.records i }
  | none => s

/-- The Emitter frees a record: Starved may end (R97), and a front epoch may open (R84). -/
def State.freeEmitted (s : State) (i : Nat) : State := (s.dropRecord i).endStarved.openFrontAfterFree

/-- The segment of one channel in record i emptied and given n (R5, R19). -/
def State.emptySegment (s : State) (i slot : Nat) (c : Fin 4) (n : Nat) : State :=
  match assocGet s.records i with
  | some r =>
    { s.returnPages (r.segment slot c).pageList with
      records := assocPut s.records i (r.putSegment slot c (Segment.empty n)) }
  | none => s

/-- The segment of one channel emptied in every Open record, in increasing epoch number (R19). -/
def State.emptyChannel (s : State) (slot : Nat) (c : Fin 4) (n : Nat) : State :=
  (s.openRecords.foldl (fun s p => s.emptySegment p.1 slot c n) s).endStarved

/-- The segments of all four channels of a slot emptied in every Open record, n = 0 (R5). -/
def State.emptySlot (s : State) (slot : Nat) : State :=
  (s.openRecords.foldl
    (fun s p => (((s.emptySegment p.1 slot 0 0).emptySegment p.1 slot 1 0).emptySegment p.1 slot 2 0).emptySegment p.1 slot 3 0)
    s).endStarved

/-! ## Close evaluation -/

/-- Every station's previous record with E_sw below `lo` retired (R33). -/
def State.retireBelow (s : State) (lo : Nat) : State :=
  { s with stations := assocMap (Machine.retireBelow lo) s.stations }

/-- The station section records of a close (R82). -/
def sectionsOf (stations : Assoc Station) : Assoc Section :=
  stations.map (fun p => (p.1, { code := p.2.code, state := p.2.state }))

/-- The close of Open record i (R82). -/
def State.closeRecord (s : State) (i : Nat) : State :=
  match assocGet s.records i with
  | some r =>
    let r' :=
      { r with
        state := .closed
        refAtClose := some s.ref.state
        storeAtClose := some s.store
        sections := some (sectionsOf s.stations)
        skipped := s.pendingSkip }
    { s with
      records := assocPut s.records i r'
      pendingSkip := 0
      closedQueue := s.closedQueue ++ [i]
      eLo := some (r.number + 1)
      stations := assocMap (Machine.retireBelow (r.number + 1)) s.stations }
  | none => s

/-- Part 1 of the close evaluation: due Open epochs close in increasing epoch number (R81). -/
def State.closeDue (s : State) : State :=
  (s.openRecords.filter (fun p => decide (s.plan.closeTime p.2.number ≤ s.ref.ntNow))).foldl (fun s p => s.closeRecord p.1) s

/-- Part 2: epochs below E_first are skipped (R81, R83). -/
def State.skipTo (s : State) (first : Nat) : State :=
  match s.eLo with
  | some lo =>
    if lo < first then
      { (s.raise .skippedEpochs).retireBelow first with
        eLo := some first
        pendingSkip := min (s.pendingSkip + (first - lo)) Config.skipMax }
    else s
  | none => s

/-- Part 3: front epochs open (R81, R84). -/
def State.openWindow (s : State) : State :=
  match s.eLo with
  | some lo => openFronts lo 17 s
  | none => s

/-- The close evaluation, in its three parts; it runs while the store is not Idle (R81). -/
def State.closeEvaluation (s : State) : State :=
  if s.store = .idle then s
  else
    let s1 := s.closeDue
    (s1.skipTo (s1.plan.firstEpoch s1.ref.ntNow)).openWindow

/-! ## Placement -/

/-- Allocation of a page for entry `j` of a segment, in Ready from the head of the list; PAGES-LOW on the fall from 256 to 255
(R87). The caller has seen that the list is not empty. -/
def State.takePage (s : State) : State :=
  let s' := { s with freePages := s.freePages.tail }
  if atLeast Config.pagesLow s.freePages && !atLeast Config.pagesLow s'.freePages then s'.raise .pagesLow else s'

/-- The store enters Starved (R96). -/
def State.enterStarved (s : State) : State := { s with store := .starved }.raise .storeStarved

/-- A sample written into a slot whose page entry is `page` (R91). The packet's flags and, where absent, its residual go into
the segment with its first placed sample; with the later ones they are already there. -/
def State.writeSample (s : State) (i : Nat) (p : InHand) (slot : Nat) (page : PageNo) (v : Sample) : State :=
  match assocGet s.records i with
  | some r =>
    let g := r.segment p.slot p.channel
    let g' :=
      { g with
        pages := assocPut g.pages (slot / 64) page
        fill := g.fill + 1
        filled := g.filled ||| BitVec.twoPow 512 slot
        residual := some (g.residual.getD p.residual)
        quality := g.quality ||| p.quality }
    { s with
      records := assocPut s.records i (r.putSegment p.slot p.channel g')
      memory := writeWord s.memory (wordAddress page (slot % 64)) v }
  | none => s

/-- OVERLAP set in a segment (R90). -/
def State.markOverlap (s : State) (i : Nat) (p : InHand) : State :=
  s.modifyRecord i (fun r =>
    let g := r.segment p.slot p.channel
    r.putSegment p.slot p.channel { g with quality := g.quality ||| Quality.overlap })

/-- A sample whose epoch is Open in record i, at a slot of its segment: rows 4 to 6 of R90. -/
def State.placeInRecord (s : State) (i : Nat) (r : EpochRecord) (p : InHand) (slot : Nat) (v : Sample) : State :=
  let g := r.segment p.slot p.channel
  match assocGet g.pages (slot / 64), s.store, s.freePages with
  | some page, _, _ =>
    if g.filled.getLsbD slot then
      (s.markOverlap i p).modifyStation p.slot (·.count (fun c => { c with overlap := bump c.overlap }))
    else s.writeSample i p slot page v
  | none, .ready, page :: _ =>
    if g.filled.getLsbD slot then
      (s.markOverlap i p).modifyStation p.slot (·.count (fun c => { c with overlap := bump c.overlap }))
    else (s.takePage).writeSample i p slot page v
  | none, .ready, [] =>
    s.enterStarved.modifyStation p.slot (·.count (fun c => { c with noPage := bump c.noPage }))
  | none, _, _ => s.modifyStation p.slot (·.count (fun c => { c with noPage := bump c.noPage }))

/-- The judgement of one sample at global slot `gs` of a channel of n slots an epoch (R90). -/
def State.placeSample (s : State) (p : InHand) (n gs : Nat) (v : Sample) : State :=
  let e := gs / n
  let lo := s.eLo.getD 0
  if e < lo then s.modifyStation p.slot (·.count (fun c => { c with late := bump c.late }))
  else if lo + s.plan.windowDepth - 1 < e then
    s.modifyStation p.slot (·.count (fun c => { c with future := bump c.future }))
  else
    match openRecord s.records e with
    | none => s.modifyStation p.slot (·.count (fun c => { c with noRecord := bump c.noRecord }))
    | some (i, r) => s.placeInRecord i r p (gs % n) v

/-- The samples of a packet in payload order from global slot `gs` (R66, R89). -/
def placeSamples (p : InHand) (n : Nat) : (gs : Nat) → List Sample → State → State
  | _, [], s => s
  | gs, v :: vs, s => placeSamples p n (gs + 1) vs (s.placeSample p n gs v)

/-- n of the channel of the packet in hand under the plan in force (R66, R90). -/
def State.handN (s : State) (p : InHand) : Nat :=
  match s.station p.slot with
  | some st => nOf (st.channels.get p.channel).rate s.plan.epochLength
  | none => 0

/-- The placement of a packet, whole (R89). -/
def State.place (s : State) (p : InHand) : State := placeSamples p (s.handN p) p.globalSlot p.samples s

/-! ## Store states -/

/-- Ready or Starved goes to Suspended, remembering Starved (R98). -/
def State.suspend (s : State) : State := { s with store := .suspended, rememberedStarved := decide (s.store = .starved) }

/-- The Withhold suspension, if one is still to take effect (R55): a Ready or Starved store is suspended as by STORE-SUSPEND (R98),
with STORE-WITHHELD raised, and nothing stays to take effect. -/
def State.withhold (s : State) : State :=
  if s.failureSignal then
    if s.store = .ready ∨ s.store = .starved then { s.suspend.raise .storeWithheld with failureSignal := false }
    else { s with failureSignal := false }
  else s

/-- The window is removed and the store is Idle: steps 2 to 5 of R100, steps 3 to 6 of R102. -/
def State.becomeIdle (s : State) : State :=
  { s with eLo := none, pendingSkip := 0, rememberedStarved := false, store := .idle }

/-- Records dropped in increasing epoch number, their pages returned (R88, R100, R102). -/
def State.dropRecords (s : State) (rs : List (Nat × EpochRecord)) : State := (byEpoch rs).foldl (fun s p => s.dropRecord p.1) s

/-- E_lo at STORE-START (R94). -/
def State.startEpoch (s : State) : Nat :=
  s.records.foldl (fun m p => max m (p.2.number + 1)) (s.plan.firstEpoch s.ref.ntNow)

end Sys2Proof.Machine
end

