-- ==== Sys2Proof/Machine/Agent.lean ====
section
/-! DEFINITION. The Management Agent: beginning a packet, taking a directive, forming and placing the answer (R161 to R166). -/

namespace Sys2Proof.Machine

/-- The progress of the packet being executed, if the agent is Executing or Held (R161). -/
def AgentState.progress : AgentState → Option Progress
  | .executing p => some p
  | .held p => some p
  | .idle => none
  | .waiting => none

/-- An answer packet (R165, 11 "Answer and notice packets"): status 0 complete, 1 malformed-packet. -/
def answerPacket (unit : BitVec 4) (tag status : Nat) (entries : List (List Byte)) : List Byte :=
  withCheck (beBytes 1 0x54 ++ beBytes 2 entries.flatten.length ++ beBytes 1 unit.toNat ++ beBytes 2 tag ++ beBytes 1 status
    ++ zeroBytes 1 ++ beBytes 1 entries.length ++ zeroBytes 1 ++ entries.flatten)

/-- An outcome entry (R165, R183). -/
def outcomeEntry (code : Byte) (o : DirOutcome) (data : List Byte) : List Byte :=
  [code] ++ beBytes 1 o.toCode ++ beBytes 2 data.length ++ data

/-- The answer joins its reserved place and the packet leaves the inbound queue; the agent goes to Waiting if a packet waits
with the answer queue full, else to Idle, from where BEGIN_PACKET begins the next (R166, log 14). -/
def State.placeAnswer (s : State) (answer : List Byte) : State :=
  let queue := s.answerQueue ++ [answer]
  let rest := s.inbound.tail
  { s with
    answerQueue := queue
    inbound := rest
    agent := if rest ≠ [] ∧ Config.answerDepth ≤ queue.length then .waiting else .idle }

/-- BEGIN_PACKET (R161, R162): with room for its answer, the head packet is begun and its structure checked; a malformed packet is
answered with no entries, an empty sound one with the complete status. -/
def execBeginPacket (s : State) : Result :=
  .next
    (match s.agent.progress, s.inbound with
    | none, packet :: _ =>
      if s.answerQueue.length < Config.answerDepth then
        match soundEntries packet with
        | none =>
          { s with globals := { s.globals with malformedPackets := bump s.globals.malformedPackets } }.placeAnswer
            (answerPacket s.unitAddress (tagOf packet) 1 [])
        | some [] => s.placeAnswer (answerPacket s.unitAddress (tagOf packet) 0 [])
        | some (e :: es) =>
          { s with
            agent := .executing { todo := e :: es, formed := [], tag := tagOf packet, stopOnRefusal := stopOnRefusalOf packet } }
      else { s with agent := .waiting }
    | _, _ => s)

/-- What a directive does: the part after it, its outcome, and its result data (R163, R183). -/
structure DirResult where
  state   : State
  outcome : DirOutcome
  data    : List Byte

/-- A directive that leaves the part as it was. -/
def DirResult.leave (s : State) (o : DirOutcome) (data : List Byte := []) : DirResult :=
  { state := s, outcome := o, data := data }

/-- A directive carried out. -/
def DirResult.done (s : State) (data : List Byte := []) : DirResult := { state := s, outcome := .done, data := data }

/-- The entry of a directive is formed; under stop-on-refusal a refusal leaves the rest NOT-RUN (R164); after the last entry the
answer is placed (R166). -/
def State.finishEntry (s : State) (p : Progress) (e : Entry) (rest : List Entry) (o : DirOutcome) (data : List Byte) : State :=
  let formed := p.formed ++ [outcomeEntry e.code o data]
  if p.stopOnRefusal && o.stops then
    s.placeAnswer (answerPacket s.unitAddress p.tag 0 (formed ++ rest.map (fun x => outcomeEntry x.code .notRun [])))
  else if rest = [] then s.placeAnswer (answerPacket s.unitAddress p.tag 0 formed)
  else { s with agent := .executing { p with todo := rest, formed := formed } }

/-- The agent takes its current entry as the directive of a code and parameter length (R163): another code is not this
directive's entry, and nothing happens; a wrong length is MALFORMED; a directive that must wait leaves the agent Held; else its
own rule decides, after a Withhold suspension signalled before (R55, log 12). -/
def runDirective (code len : Nat) (waits : State → List Byte → Bool) (body : State → List Byte → DirResult) (s : State) : State :=
  match s.agent.progress with
  | none => s
  | some p =>
    match p.todo with
    | [] => s
    | e :: rest =>
      if e.code.toNat ≠ code then s
      else if e.params.length ≠ len then s.finishEntry p e rest .malformed []
      else if waits s e.params then { s with agent := .held p }
      else
        let r := body s.withhold e.params
        r.state.finishEntry p e rest r.outcome r.data

/-- A directive that never waits (R163). -/
def noWait (_ : State) (_ : List Byte) : Bool := false

/-- A directive that waits for the packet in hand of the station its first parameter names (R13, R38). -/
def waitsForStation (s : State) (params : List Byte) : Bool := s.handles (fieldAt params 0 1)

/-- UNKNOWN (R163): an entry whose code names no directive. -/
def execUnknown (s : State) : Result :=
  .next
    (match s.agent.progress with
    | none => s
    | some p =>
      match p.todo with
      | [] => s
      | e :: rest => if commandOf e.code.toNat = .unknown then s.finishEntry p e rest .unknown [] else s)

end Sys2Proof.Machine
end

