-- ==== Sys2Proof/Machine/Emission.lean ====
section
/-! DEFINITION. The Emitter: fragment plans and epoch frames (R130 to R135), completion of a fragment (R136, R137), stall expiries
(R139 to R141). -/

namespace Sys2Proof.Machine

/-! ## Sizes and the fragment plan -/

/-- The bytes a segment takes in its section: none with n = 0, else its channel header and, filled, its words (R134, R135). -/
def Segment.size (g : Segment) : Nat := if g.n = 0 then 0 else if g.fill = 0 then 16 else 16 + 4 * g.n

/-- The channels 0 to 3. -/
def channels4 : List (Fin 4) := [0, 1, 2, 3]

/-- The size of the section of a slot (R135). -/
def EpochRecord.sectionSize (r : EpochRecord) (slot : Nat) : Nat :=
  16 + (channels4.map (fun c => (r.segment slot c).size)).sum

/-- Sections of given sizes into fragments: each joins the current fragment if the payload stays within 16,384 bytes (R130). The
current fragment is empty only before the first section. -/
def packSections : (current : List Nat) → (size : Nat) → List (Nat × Nat) → List (List Nat)
  | cur, _, [] => [cur]
  | cur, size, (slot, sz) :: t =>
    if cur = [] then packSections [slot] sz t
    else if size + sz ≤ Config.framePayload then packSections (cur ++ [slot]) (size + sz) t
    else cur :: packSections [slot] sz t

/-- The slots of the record's section records, ascending (R130). -/
def EpochRecord.sectionSlots (r : EpochRecord) : List Nat := (r.sections.getD []).map (·.1)

/-- The fragment plan of a record (R130). -/
def EpochRecord.fragmentPlan (r : EpochRecord) : List (List Nat) :=
  packSections [] 0 (r.sectionSlots.map (fun slot => (slot, r.sectionSize slot)))

/-! ## Frames -/

/-- Word of slot `k` of a segment as it is sent: the sample, or the absent mark (R135). -/
def slotWord (m : List Host.Cell) (g : Segment) (k : Nat) : Sample :=
  if g.filled.getLsbD k then
    match assocGet g.pages (k / 64) with
    | some page => readWord m (wordAddress page (k % 64))
    | none => absentMark
  else absentMark

/-- Words of the slots from `k`, `count` of them. -/
def slotWords (m : List Host.Cell) (g : Segment) : (count k : Nat) → List Byte
  | 0, _ => []
  | c + 1, k => beBytes 4 (slotWord m g k).toNat ++ slotWords m g c (k + 1)

/-- A channel header and its sample words; nothing for a segment with n = 0 (R134, R135). -/
def channelBytes (m : List Host.Cell) (l : Nat) (g : Segment) (c : Fin 4) : List Byte :=
  if g.n = 0 then []
  else
    beBytes 1 c.val ++ beBytes 1 (rateCodeOf g.n l) ++ beBytes 2 g.n ++ beBytes 2 g.fill
      ++ beBytes 1 (g.quality.toNat + if g.residual.isNone then 64 else 0) ++ zeroBytes 1
      ++ beInt 4 (g.residual.getD 0) ++ zeroBytes 4
      ++ (if g.fill = 0 then [] else slotWords m g g.n 0)

/-- The section of a slot (R133). -/
def sectionBytes (m : List Host.Cell) (r : EpochRecord) (slot : Nat) : List Byte :=
  match assocGet (r.sections.getD []) slot with
  | some sec =>
    beBytes 2 sec.code ++ beBytes 1 slot ++ beBytes 1 (stationCode (some sec.state))
      ++ beBytes 1 (channels4.countP (fun c => decide ((r.segment slot c).n ≠ 0))) ++ zeroBytes 11
      ++ channels4.flatMap (fun c => channelBytes m r.epochLength (r.segment slot c) c)
  | none => []

/-- The sections of a fragment end to end (R131). -/
def fragmentPayload (m : List Host.Cell) (r : EpochRecord) (slots : List Nat) : List Byte :=
  slots.flatMap (sectionBytes m r)

/-- The slots that fragment `i` of a plan carries. -/
def Emission.slotsOf (e : Emission) : List Nat := e.plan.getD e.next []

/-- Whether the next fragment is the last of the plan (R132). -/
def Emission.atLast (e : Emission) : Bool := decide (e.plan.length ≤ e.next + 1)

/-- The epoch frame of the next fragment (R131, R132). -/
def epochFrame (unit : BitVec 4) (m : List Host.Cell) (r : EpochRecord) (e : Emission) : List Byte :=
  let payload := fragmentPayload m r e.slotsOf
  withCheck (beBytes 1 0x52 ++ beBytes 2 payload.length ++ beBytes 1 unit.toNat ++ beBytes 6 r.number ++ beBytes 8 r.start
    ++ beBytes 1 e.next ++ flagByte e.atLast ++ beBytes 1 ((r.refAtClose.map RefState.toCode).getD 0)
    ++ beBytes 1 ((r.storeAtClose.map StoreState.toCode).getD 0) ++ beBytes 2 r.skipped ++ beBytes 1 e.slotsOf.length
    ++ beBytes 2 r.epochLength ++ zeroBytes 5 ++ payload)

/-! ## Offers and grants of own frames -/

/-- Whether the Emitter offers a fragment (R129, R138). -/
def State.ownWaiting (s : State) : Bool :=
  match s.emitter with
  | .idle => !s.closedQueue.isEmpty
  | .building _ => true
  | .sending _ _ => false

/-- The offered fragment goes out; fragment 0 makes the head record Emitting and forms its plan (R129, R138). -/
def State.grantOwn (s : State) : State :=
  match s.emitter, s.closedQueue with
  | .idle, i :: rest =>
    match assocGet s.records i with
    | some r =>
      let e : Emission := { record := i, plan := r.fragmentPlan, next := 0 }
      { s with
        records := assocPut s.records i { r with state := .emitting }
        closedQueue := rest
        emitter := .sending e .goesOn
        transmitting := some { source := .own, bytes := epochFrame s.unitAddress s.memory r e } }
    | none => s
  | .building e, _ =>
    match assocGet s.records e.record with
    | some r =>
      { s with
        emitter := .sending e .goesOn
        transmitting := some { source := .own, bytes := epochFrame s.unitAddress s.memory r e } }
    | none => s
  | _, _ => s

/-! ## Stall expiries -/

/-- One epoch given up: EMIT-DROP raised, epochs-dropped raised (R139, R140). -/
def State.countDrop (s : State) : State :=
  { s.raise .emitDrop with globals := { s.globals with epochsDropped := bump s.globals.epochsDropped } }

/-- The head of the closed-epoch queue is dropped, if there is one (R140). -/
def State.dropHead (s : State) : State :=
  match s.closedQueue with
  | i :: rest => ({ s with closedQueue := rest }.freeEmitted i).countDrop
  | [] => s

/-- A stall expiry delivered to the Emitter (R139, R140, R141). One that finds the last fragment in transmission is handled at its
completion (log 10). -/
def State.stallExpiry (s : State) : State :=
  match s.emitter with
  | .idle => s.dropHead
  | .building e => { s.freeEmitted e.record with emitter := .idle }.countDrop
  | .sending e fate =>
    if fate = .abandoned then s.dropHead
    else if e.atLast then { s with deferredExpiries := s.deferredExpiries + 1 }
    else { s with emitter := .sending e .abandoned }.countDrop

/-- Deferred expiries, each handled under R140 (R139, R141). -/
def dropHeads : Nat → State → State
  | 0, s => s
  | k + 1, s => dropHeads k s.dropHead

/-! ## Completion of a fragment -/

/-- The pages of one segment freed and its entries made absent (R136). -/
def State.freeSegmentPages (s : State) (i slot : Nat) (c : Fin 4) : State :=
  match assocGet s.records i with
  | some r =>
    let g := r.segment slot c
    { s.returnPages g.pageList with records := assocPut s.records i (r.putSegment slot c { g with pages := [] }) }
  | none => s

/-- The pages of the sections of a fragment freed, in ascending slot, channel and entry (R136). -/
def State.freeFragmentPages (s : State) (e : Emission) : State :=
  e.slotsOf.foldl (fun s slot => channels4.foldl (fun s c => s.freeSegmentPages e.record slot c) s) s

/-- The fragment in transmission completes (R136, R137, R139, R143). -/
def State.completeFragment (s : State) : State :=
  match s.emitter with
  | .sending e .goesOn =>
    let s1 := (s.freeFragmentPages e).endStarved
    if e.atLast then
      let s2 := { s1.freeEmitted e.record with emitter := .idle }
      { dropHeads s2.deferredExpiries s2 with deferredExpiries := 0 }
    else { s1 with emitter := .building { e with next := e.next + 1 } }
  | .sending e _ =>
    let s1 := { (s.freeFragmentPages e).freeEmitted e.record with emitter := .idle }
    { dropHeads s1.deferredExpiries s1 with deferredExpiries := 0 }
  | _ => s

end Sys2Proof.Machine
end

