-- ==== Sys2Proof/Machine/Window.lean ====
section
/-! DEFINITION. The sequence filter (R119 to R125). -/

namespace Sys2Proof.Machine

/-- The three results of the filter (R116). -/
inductive Verdict where
  | accepted
  | duplicate
  | stale
deriving DecidableEq, Repr

/-- A window begun by a first packet (row 1 of R120). -/
def SeqWindow.first (q : BitVec 16) : SeqWindow := { high := q, marks := 0x80000000, staleRun := 0 }

/-- A stale packet: the run rises, and the eighth resynchronises the window and is accepted (R122). -/
def judgeStale (w : SeqWindow) (q : BitVec 16) : Verdict × SeqWindow :=
  if 8 ≤ w.staleRun + 1 then (.accepted, SeqWindow.first q) else (.stale, { w with staleRun := w.staleRun + 1 })

/-- The filter against a present window (rows 2 to 6 of R120). -/
def judgePresent (w : SeqWindow) (q : BitVec 16) : Verdict × SeqWindow :=
  let d := (q - w.high).toNat
  if d = 0 then (.duplicate, w)
  else if d ≤ 32767 then (.accepted, { high := q, marks := (w.marks >>> d) ||| 0x80000000, staleRun := 0 })
  else
    let a := 65536 - d
    if a ≤ 31 then
      if w.marks.getLsbD (31 - a) then (.duplicate, w)
      else (.accepted, { w with marks := w.marks ||| BitVec.twoPow 32 (31 - a), staleRun := 0 })
    else judgeStale w q

/-- The filter, the restart flag having acted first (R120, R123). -/
def judge (restart : Bool) (w : Option SeqWindow) (q : BitVec 16) : Verdict × SeqWindow :=
  match (if restart then none else w) with
  | none => (.accepted, SeqWindow.first q)
  | some w => judgePresent w q

end Sys2Proof.Machine
end

