-- ==== Sys2Proof/Machine/Trunk.lean ====
section
/-! DEFINITION. Trunk ports, the acceptance arbiter, the Acceptance Path and the silence timers (R2, R7 to R11, R103 to R117). -/

namespace Sys2Proof.Machine

/-! ## Arrivals and link loss -/

/-- The frame checks of a trunk port, up to the check field (checks 1 to 3 of R104). -/
def trunkShapeOk (bs : List Byte) : Bool :=
  decide (20 ≤ bs.length) && decide (bs.length ≤ 274) && decide (typeOf bs = some 0x51)
    && decide (lengthField bs = bs.length - 18)

/-- A packet arrival at a port (R104, R105). -/
def TrunkPort.arrival (t : TrunkPort) (bs : List Byte) : TrunkPort :=
  if !trunkShapeOk bs then { t with lengthErrors := bump t.lengthErrors }
  else if !checkPasses bs then { t with checkErrors := bump t.checkErrors }
  else
    let t' := { t with goodPackets := bump t.goodPackets, link := .up, timer := some 0 }
    if t.fifo.length < Config.fifoDepth then { t' with fifo := t.fifo ++ [bs] }
    else { t' with overflows := bump t.overflows }

/-- PACKET_ARRIVAL (R104). -/
def execPacketArrival (p : Port) (bs : List Byte) (s : State) : Result := .next (s.setTrunk p ((s.trunk p).arrival bs))

/-- Whether a route mask contains a port that is Up (R10). -/
def State.maskUp (s : State) (m : RouteMask) : Bool := (m.a && s.portA.link.isUp) || (m.b && s.portB.link.isUp)

/-- Whether route loss silences a station: it is Tracking and its mask contains no Up port (R10). -/
def State.losesRoute (s : State) (st : Station) : Bool := decide (st.state = .tracking) && !s.maskUp st.mask

/-- The Tracking stations without an Up port go Silent, and STATION-SILENT is raised if there is one (R10). -/
def State.routeLoss (s : State) : State :=
  let s' :=
    { s with
      stations := assocMap (fun st => if s.losesRoute st then { st with state := .silent, silence := none } else st) s.stations }
  if s.stations.any (fun p => s.losesRoute p.2) then s'.raise .stationSilent else s'

/-- A trunk port goes Up to Down (R109); nothing if it is Down (R108). -/
def State.portDown (s : State) (p : Port) : State :=
  if (s.trunk p).link = .up then
    ((s.setTrunk p { s.trunk p with link := .down, timer := none }).raise (trunkDownFlag p)).routeLoss
  else s

/-- LOSS_OF_SIGNAL_INDICATION (R108). -/
def execLossOfSignal (p : Port) (s : State) : Result := .next (s.portDown p)

/-- The link-loss time in ns (R110). -/
def State.linkLossNs (s : State) : Nat := s.linkLossTime * nsPerMs

/-- LINK_LOSS_TIMER_EXPIRY (R107): the port goes Down when its timer has run one link-loss time; before that nothing happens. -/
def execLinkLossTimerExpiry (p : Port) (s : State) : Result :=
  .next (if timerDue s.linkLossNs (s.trunk p).timer then s.portDown p else s)

/-! ## Silence timers -/

/-- A silence limit in ns. -/
def Station.silenceNs (st : Station) : Nat := st.silenceLimit * nsPerSecond

/-- SILENCE_TIMER_EXPIRY (R8): the timer runs only in Tracking; before one silence limit nothing happens. -/
def execSilenceTimerExpiry (slot : Nat) (s : State) : Result :=
  .next
    (match s.station slot with
    | some st =>
      if decide (st.state = .tracking) && timerDue st.silenceNs st.silence then
        (s.putStation slot { st with state := .silent, silence := none }).raise .stationSilent
      else s
    | none => s)

/-! ## The map lookup -/

/-- The binary search of R2 over the range from `lo` up to but not including `hi`. The fuel bounds the comparisons. -/
def searchMap (m : List MapEntry) (code : Nat) : (fuel lo hi : Nat) → Option Nat
  | 0, _, _ => none
  | k + 1, lo, hi =>
    if lo < hi then
      let mid := (lo + (hi - 1)) / 2
      match m[mid]? with
      | none => none
      | some e =>
        if e.code = code then some e.slot
        else if e.code < code then searchMap m code k (mid + 1) hi
        else searchMap m code k lo mid
    else none

/-- The station lookup (R2): at most 8 comparisons for the 192 entries the map may hold; one fuel each. -/
def lookupStation (m : List MapEntry) (code : Nat) : Option Nat := searchMap m code 8 0 m.length

/-! ## Acceptance -/

/-- The channel and format check (R115), answering the channel. -/
def formatCheck (st : Station) (pk : StationPacket) : Option (Fin 4) :=
  if h : pk.channel < 4 then
    let c : Fin 4 := ⟨pk.channel, h⟩
    let ch := st.channels.get c
    if ch.rate ≠ 0 ∧ 1 ≤ pk.count ∧ pk.count ≤ 64 ∧ pk.length = pk.count * ch.word.width then some c else none
  else none

/-- Acceptance: the accepted-packets counter, Tracking, and the silence timer from 0 (R7). -/
def acceptStation (st : Station) : Station :=
  { st with
    state := .tracking
    silence := some 0
    counters := { st.counters with accepted := bump st.counters.accepted } }

/-- Stages 5 to 7 of R113 for a packet of a channel that has passed the checks. -/
def State.filterPacket (s : State) (p : Port) (slot : Nat) (st : Station) (c : Fin 4) (pk : StationPacket) : State :=
  let ch := st.channels.get c
  match judge pk.restart ch.window pk.sequence with
  | (.duplicate, w) =>
    s.putStation slot
      { st with channels := st.channels.set c { ch with window := some w, duplicates := bump ch.duplicates } }
  | (.stale, w) =>
    s.putStation slot { st with channels := st.channels.set c { ch with window := some w, stale := bump ch.stale } }
  | (.accepted, w) =>
    let (record, isPrevious) := selectRecord st pk.time
    let r := correctPacket record isPrevious ch pk
    { s.putStation slot (acceptStation { st with channels := st.channels.set c { ch with window := some w } }) with
      inHand := some
        { port := p, slot := slot, channel := c, globalSlot := r.globalSlot, residual := r.residual, quality := r.quality,
          samples := r.samples } }

/-- Stages 1 to 7 of R113 for a packet taken from port `p`. -/
def State.handlePacket (s : State) (p : Port) (bs : List Byte) : State :=
  let pk := readStationPacket bs
  match lookupStation s.map pk.code with
  | none => s.setTrunk p { s.trunk p with unknownStation := bump (s.trunk p).unknownStation }
  | some slot =>
    match s.station slot with
    | none => s
    | some st =>
      if !st.mask.has p then s.putStation slot (st.count (fun c => { c with byRoute := bump c.byRoute }))
      else if st.state = .quarantined then s.putStation slot (st.count (fun c => { c with byQuarantine := bump c.byQuarantine }))
      else
        match formatCheck st pk with
        | none => s.putStation slot (st.count (fun c => { c with byFormat := bump c.byFormat }))
        | some c => s.filterPacket p slot st c pk

/-- The port the arbiter takes from, if any (R112). -/
def State.takePort (s : State) : Option Port :=
  if (s.trunk s.nextPort).fifo ≠ [] then some s.nextPort
  else if (s.trunk (otherPort s.nextPort)).fifo ≠ [] then some (otherPort s.nextPort)
  else none

/-- The head packet of port `p` taken, and the next port set (R112). -/
def State.take (s : State) (p : Port) : State :=
  { s.setTrunk p { s.trunk p with fifo := (s.trunk p).fifo.tail } with nextPort := otherPort p }

/-- ARBITER_TAKE (R112, R113): nothing while the Acceptance Path holds a packet, a directive waits for the end of its handling
(R13, R38, R118), a Withhold suspension is still to take effect (R55), or both FIFOs are empty. -/
def execArbiterTake (s : State) : Result :=
  .next
    (match s.pathFree, s.takePort with
    | true, some p =>
      match (s.trunk p).fifo with
      | bs :: _ => (s.take p).handlePacket p bs
      | [] => s
    | _, _ => s)

/-- HAND_OFF (R89, R117): placement in Ready and Starved; in Idle and Suspended the samples are counted as store-not-ready. -/
def execHandOff (s : State) : Result :=
  .next
    (match s.inHand with
    | none => s
    | some p =>
      if s.store = .ready ∨ s.store = .starved then { s.place p with inHand := none }
      else
        { s.modifyStation p.slot (·.count (fun c => { c with storeNotReady := bump c.storeNotReady p.samples.length })) with
          inHand := none })

end Sys2Proof.Machine
end

