-- ==== Sys2Proof/Machine/Reading.lean ====
section
/-! DEFINITION. Directives that read the part (R167 to R171, R183). -/

namespace Sys2Proof.Machine

/-- IDENTIFY's own rule (R167). -/
def identifyRule (s : State) (_ : List Byte) : DirResult :=
  .done s
    (beBytes 2 Config.partCode ++ beBytes 1 Config.revision ++ beBytes 1 s.unitAddress.toNat ++ beBytes 1 Config.stationSlots
      ++ beBytes 1 Config.channelsPerStation ++ beBytes 1 Config.epochRecords ++ beBytes 2 Config.pages)

/-- IDENTIFY (R167). -/
def execIdentify (s : State) : Result := .next (runDirective 0x01 0 noWait identifyRule s)

/-- The silence timer as it is reported: 0 stopped, else the remaining milliseconds rounded up, at least 1 (R168, R183, log 18). -/
def Station.silenceMs (st : Station) : Nat :=
  match st.silence with
  | none => 0
  | some e => max 1 ((st.silenceNs - e + (nsPerMs - 1)) / nsPerMs)

/-- A channel as READ-STATION reports it (R183). -/
def channelReport (ch : Channel) : List Byte :=
  beBytes 1 ch.rate ++ beBytes 1 ch.word.toCode ++ beBytes 1 ch.order.toCode
    ++ (match ch.window with
      | some w => flagByte true ++ beBytes 2 w.high.toNat ++ beBytes 4 w.marks.toNat ++ beBytes 1 w.staleRun
      | none => zeroBytes 8)

/-- A correction record as READ-STATION reports it; absent, its fields are zero (R39, R180, R183). -/
def correctionReport : Option Correction → List Byte
  | some c =>
    flagByte true ++ beInt 8 c.offset ++ beInt 4 c.drift ++ beBytes 6 c.refTime ++ beBytes 4 c.span ++ beBytes 2 c.version
      ++ flagByte c.isDefault ++ flagByte c.switch.isSome ++ beBytes 6 (c.switch.getD 0)
  | none => zeroBytes 33

/-- A station record as READ-STATION reports it, after the slot (R183). -/
def stationReport (st : Station) : List Byte :=
  beBytes 1 (stationCode (some st.state)) ++ beBytes 2 st.code ++ beBytes 1 st.mask.toCode ++ beBytes 2 st.silenceLimit
    ++ beBytes 4 st.silenceMs ++ st.channels.toList.flatMap channelReport ++ correctionReport (some st.current)
    ++ correctionReport (st.previous.map (·.record)) ++ correctionReport st.staged ++ flagByte st.previous.isSome
    ++ beBytes 6 ((st.previous.map (·.eSw)).getD 0)

/-- READ-STATION's own rule (R168). -/
def readStationRule (s : State) (ps : List Byte) : DirResult :=
  let slot := fieldAt ps 0 1
  if 191 < slot then .leave s .refusedRange
  else
    match s.station slot with
    | none => .done s (beBytes 1 slot ++ beBytes 1 (stationCode none))
    | some st => .done s (beBytes 1 slot ++ stationReport st)

/-- READ_STATION (R168): not held back by the packet in hand. -/
def execReadStation (s : State) : Result := .next (runDirective 0x0D 1 noWait readStationRule s)

/-- Counters of a scope, 4 bytes each. -/
def counterBytes (cs : List Counter) : List Byte := cs.flatMap (beBytes 4)

def TrunkPort.counterList (t : TrunkPort) : List Counter :=
  [t.goodPackets, t.lengthErrors, t.checkErrors, t.overflows, t.unknownStation]

def TrunkPort.clearCounters (t : TrunkPort) : TrunkPort :=
  { t with goodPackets := 0, lengthErrors := 0, checkErrors := 0, overflows := 0, unknownStation := 0 }

def ChainPort.counterList (c : ChainPort) : List Counter :=
  [c.goodFrames, c.typeErrors, c.lengthErrors, c.checkErrors, c.overflows, c.forwardDrops]

def ChainPort.clearCounters (c : ChainPort) : ChainPort :=
  { c with goodFrames := 0, typeErrors := 0, lengthErrors := 0, checkErrors := 0, overflows := 0, forwardDrops := 0 }

def StationCounters.counterList (c : StationCounters) : List Counter :=
  [c.accepted, c.byRoute, c.byQuarantine, c.byFormat, c.storeNotReady, c.late, c.future, c.noRecord, c.noPage, c.overlap]

/-- The eighteen counters of a station (R22, R183). -/
def Station.counterList (st : Station) : List Counter :=
  st.counters.counterList ++ st.channels.toList.flatMap (fun ch => [ch.duplicates, ch.stale])

/-- The eighteen counters of a station set to 0 (R22). -/
def Station.clearCounters (st : Station) : Station :=
  { st with
    counters := StationCounters.zero
    channels := st.channels.mapAll (fun ch => { ch with duplicates := 0, stale := 0 }) }

def GlobalCounters.counterList (g : GlobalCounters) : List Counter :=
  [g.packetsTaken, g.managementDrops, g.malformedPackets, g.receiveErrors, g.epochsDropped, g.noticesSent]

/-- READ-COUNTERS's own rule: the report, and in the same event the clear (R169). -/
def readCountersRule (s : State) (ps : List Byte) : DirResult :=
  let code := fieldAt ps 0 1
  let slot := fieldAt ps 1 1
  let clear := (fieldAt ps 2 1).testBit 0
  match readScope code with
  | none => .leave s .refusedRange
  | some (.port p) =>
    let t := s.trunk p
    .done (if clear then s.setTrunk p t.clearCounters else s)
      (beBytes 1 code ++ counterBytes t.counterList ++ beBytes 1 t.link.toCode)
  | some .chain =>
    .done (if clear then { s with chain := s.chain.clearCounters } else s)
      (beBytes 1 code ++ counterBytes s.chain.counterList ++ beBytes 1 s.chain.link.toCode ++ beBytes 1 s.chain.buffer.length
        ++ flagByte s.chain.outwardHold)
  | some .station =>
    if 191 < slot then .leave s .refusedRange
    else
      match s.station slot with
      | none => .leave s .refusedTarget
      | some st =>
        .done (if clear then s.putStation slot st.clearCounters else s) (beBytes 1 code ++ counterBytes st.counterList)
  | some .global =>
    .done (if clear then { s with globals := GlobalCounters.reset } else s)
      (beBytes 1 code ++ counterBytes s.globals.counterList)

/-- READ_COUNTERS (R169). -/
def execReadCounters (s : State) : Result := .next (runDirective 0x0E 3 noWait readCountersRule s)

/-- The Emitter's progress, if it holds an Emitting record (R127). -/
def Emitter.emission : Emitter → Option Emission
  | .idle => none
  | .building e => some e
  | .sending e _ => some e

/-- The epoch number of a record. -/
def State.epochOf (s : State) (i : Nat) : Nat := ((assocGet s.records i).map (·.number)).getD 0

/-- READ-STORE's result data (R170, R183). -/
def storeReport (s : State) : List Byte :=
  beBytes 1 s.store.toCode ++ flagByte s.rememberedStarved
    ++ beBytes 2 s.plan.epochLength ++ beBytes 1 s.plan.windowDepth ++ beBytes 2 s.plan.hold
    ++ beBytes 1 s.plan.failureAction.toCode
    ++ flagByte s.eLo.isSome ++ beBytes 6 (s.eLo.getD 0) ++ beBytes 1 s.openCount
    ++ beBytes 2 s.freePages.length
    ++ beBytes 1 (Config.epochRecords - s.records.length) ++ beBytes 1 s.openCount ++ beBytes 1 (s.countRecords .closed)
    ++ beBytes 1 (s.countRecords .emitting)
    ++ beBytes 1 s.closedQueue.length ++ flagByte (!s.closedQueue.isEmpty)
    ++ beBytes 6 ((s.closedQueue.head?.map s.epochOf).getD 0)
    ++ beBytes 1 s.emitter.toCode ++ flagByte s.emitter.emission.isSome
    ++ beBytes 6 ((s.emitter.emission.map (fun e => s.epochOf e.record)).getD 0)
    ++ beBytes 1 ((s.emitter.emission.map (·.next)).getD 0)
    ++ beBytes 2 s.pendingSkip

/-- READ-STORE's own rule (R170). -/
def readStoreRule (s : State) (_ : List Byte) : DirResult := .done s (storeReport s)

/-- READ_STORE (R170). -/
def execReadStore (s : State) : Result := .next (runDirective 0x0F 0 noWait readStoreRule s)

/-- READ-FLAGS's own rule (R171, R183). -/
def readFlagsRule (s : State) (_ : List Byte) : DirResult :=
  .done s
    (beBytes 2 s.flags.toNat ++ beBytes 2 s.noticeMask.toNat ++ flagByte s.noticeSlot.isSome
      ++ beBytes 2 (s.noticeSlot.getD 0).toNat ++ beBytes 1 s.ref.state.toCode ++ beBytes 1 s.store.toCode)

/-- READ_FLAGS (R171). -/
def execReadFlags (s : State) : Result := .next (runDirective 0x10 0 noWait readFlagsRule s)

end Sys2Proof.Machine
end

