-- ==== Sys2Proof/Machine/Running.lean ====
section
/-! DEFINITION. Directives on the store state, RESTART and power-on reset (R94, R98 to R102, R178, R23). -/

namespace Sys2Proof.Machine

/-- STORE-START's own rule (R94). -/
def storeStartRule (s : State) (_ : List Byte) : DirResult :=
  if s.store ≠ .idle then .leave s .refusedState
  else .done (openFronts s.startEpoch 17 { s with store := .ready, eLo := some s.startEpoch })

/-- STORE_START (R94). -/
def execStoreStart (s : State) : Result := .next (runDirective 0x13 0 noWait storeStartRule s)

/-- Every station's previous correction record retired (R34). -/
def State.retireAll (s : State) : State := { s with stations := assocMap retirePrevious s.stations }

/-- STORE-STOP's own rule (R100). -/
def storeStopRule (s : State) (_ : List Byte) : DirResult :=
  if s.store = .idle then .leave s .noEffect
  else .done ((s.dropRecords s.openRecords).becomeIdle).retireAll

/-- STORE_STOP (R100). -/
def execStoreStop (s : State) : Result := .next (runDirective 0x14 0 noWait storeStopRule s)

/-- STORE-SUSPEND's own rule (R98). -/
def storeSuspendRule (s : State) (_ : List Byte) : DirResult :=
  match s.store with
  | .ready => .done s.suspend
  | .starved => .done s.suspend
  | .suspended => .leave s .noEffect
  | .idle => .leave s .refusedState

/-- STORE_SUSPEND (R98). -/
def execStoreSuspend (s : State) : Result := .next (runDirective 0x15 0 noWait storeSuspendRule s)

/-- STORE-RESUME's own rule (R99). -/
def storeResumeRule (s : State) (_ : List Byte) : DirResult :=
  match s.store with
  | .suspended =>
    if s.rememberedStarved && !atLeast Config.starvedEnd s.freePages then .done { s.enterStarved with rememberedStarved := false }
    else .done { s with store := .ready, rememberedStarved := false }
  | .ready => .leave s .noEffect
  | .starved => .leave s .noEffect
  | .idle => .leave s .refusedState

/-- STORE_RESUME (R99). -/
def execStoreResume (s : State) : Result := .next (runDirective 0x16 0 noWait storeResumeRule s)

/-! ## RESTART -/

/-- A station record through RESTART (R23). -/
def restartStation (st : Station) : Station :=
  { st with
    state := if st.state = .quarantined then .quarantined else .configured
    silence := none
    channels := st.channels.mapAll (fun ch => { ch with window := none, duplicates := 0, stale := 0 })
    counters := StationCounters.zero
    previous := none }

/-- A trunk port through RESTART (R103, R118). -/
def restartTrunk (t : TrunkPort) : TrunkPort := { t.clearCounters with fifo := [] }

/-- The records that RESTART frees at once: the Open and Closed ones, and in Building the Emitting one (R102, R143). -/
def State.restartRecords (s : State) : List (Nat × EpochRecord) :=
  s.records.filter (fun p =>
    p.2.inState .opened || p.2.inState .closed
      || (match s.emitter with
        | .building e => decide (p.1 = e.record)
        | .idle => false
        | .sending _ _ => false))

/-- The Emitter through RESTART: in Sending it keeps its record until the fragment completes (R143); a record abandoned before
stays abandoned (R139). -/
def restartEmitter : Emitter → Emitter
  | .idle => .idle
  | .building _ => .idle
  | .sending e fate => .sending e (if fate = .abandoned then .abandoned else .restarted)

/-- RESTART takes effect, one event in every block (R178). -/
def State.restartAll (s : State) : State :=
  { (s.dropRecords s.restartRecords).becomeIdle with
    portA := restartTrunk s.portA
    portB := restartTrunk s.portB
    stations := assocMap restartStation s.stations
    closedQueue := []
    emitter := restartEmitter s.emitter
    deferredExpiries := 0
    noticeSlot := none
    chain := s.chain.clearCounters
    flags := 0
    globals := GlobalCounters.reset }

/-- RESTART's own rule (R178). -/
def restartRule (s : State) (_ : List Byte) : DirResult := .done s.restartAll

/-- RESTART waits while the Acceptance Path holds any packet (R118, R178). -/
def waitsForPath (s : State) (_ : List Byte) : Bool := s.inHand.isSome

/-- RESTART (R178). -/
def execRestart (s : State) : Result := .next (runDirective 0x17 0 waitsForPath restartRule s)

/-! ## Power-on reset -/

/-- POWER_ON_RESET (R23, R43, R93, R167): the whole part as `State.reset`, with the unit address read from the straps. The queue of
commands and the model's own quantum and tie count are no state of the part and stay. -/
def execPowerOnReset (straps : BitVec 4) (s : State) : Result :=
  .next { State.reset with pending := s.pending, quantum := s.quantum, ties := s.ties, unitAddress := straps }

end Sys2Proof.Machine
end

