-- ==== Sys2Proof/Machine/Chain.lean ====
section
/-! DEFINITION. The inbound side of the centre link and the chain port (R152 to R160). -/

namespace Sys2Proof.Machine

/-- The intake checks of the centre link (R152). -/
def intakeOk (bs : List Byte) : Bool :=
  decide (12 ≤ bs.length) && decide (bs.length ≤ 512) && decide (typeOf bs = some 0x53)
    && decide (lengthField bs = bs.length - 12) && checkPasses bs

/-- A packet offered to the inbound directive queue (R160). With the answer queue full the agent waits (R161). -/
def State.offerInbound (s : State) (bs : List Byte) : State :=
  if s.inbound.length < Config.inboundDepth then
    { s with
      inbound := s.inbound ++ [bs]
      agent := if s.agent = .idle ∧ Config.answerDepth ≤ s.answerQueue.length then .waiting else s.agent
      globals := { s.globals with packetsTaken := bump s.globals.packetsTaken } }
  else { s.raise .mgmtDrop with globals := { s.globals with managementDrops := bump s.globals.managementDrops } }

/-- A forward drop is counted (R153, R154). -/
def ChainPort.countForwardDrop (c : ChainPort) : ChainPort := { c with forwardDrops := bump c.forwardDrops }

/-- A packet offered to the forward queue (R154); the transmit side sends the head at once when it is sending nothing. -/
def ChainPort.offerForward (c : ChainPort) (bs : List Byte) : ChainPort :=
  if c.link = .up ∧ c.forwardQueue.length < Config.forwardDepth then
    { c with
      forwardQueue := c.forwardQueue ++ [bs]
      outgoing := match c.outgoing with
        | some x => some x
        | none => (c.forwardQueue ++ [bs]).head?.map forwardImage }
  else c.countForwardDrop

/-- Whether a packet is executed here (R153). -/
def State.executesHere (s : State) (bs : List Byte) : Bool :=
  decide (destinationOf bs = s.unitAddress.toNat) || decide (destinationOf bs = 31)

/-- What the chain port does with a packet that passed the intake checks (R153). -/
def State.routeForward (s : State) (bs : List Byte) : ChainPort :=
  if destinationOf bs = s.unitAddress.toNat then s.chain
  else if 1 ≤ hopCountOf bs then s.chain.offerForward bs
  else if destinationOf bs = 31 then s.chain
  else s.chain.countForwardDrop

/-- DIRECTIVE_PACKET_ARRIVAL (R152, R153): the two offers are judged each on its own. -/
def execDirectivePacketArrival (bs : List Byte) (s : State) : Result :=
  .next
    (if intakeOk bs then
      let s' := { s with chain := s.routeForward bs }
      if s.executesHere bs then s'.offerInbound bs else s'
    else { s with globals := { s.globals with receiveErrors := bump s.globals.receiveErrors } })

/-- FORWARD_COMPLETE (R154): the packet leaves the queue and the next one is sent. -/
def execForwardComplete (s : State) : Result :=
  .next
    (match s.chain.outgoing with
    | some _ =>
      let rest := s.chain.forwardQueue.tail
      { s with chain := { s.chain with forwardQueue := rest, outgoing := rest.head?.map forwardImage } }
    | none => s)

/-- Header size and received-length bounds of the types carried on the chain port (R156, R180). -/
def frameShape : Nat → Option (Nat × Nat × Nat)
  | 0x52 => some (32, 34, 16418)
  | 0x54 => some (10, 12, 4096)
  | 0x55 => some (4, 14, 14)
  | _ => none

/-- A good frame at the chain port (R155 to R158). -/
def ChainPort.goodFrame (c : ChainPort) (bs : List Byte) : ChainPort :=
  let c' := { c with goodFrames := bump c.goodFrames, link := .up, timer := some 0 }
  if c.buffer.length < Config.bufferDepth then
    { c' with
      buffer := c.buffer ++ [bs]
      outwardHold := if c.buffer.length + 1 = Config.bufferDepth then true else c.outwardHold }
  else { c' with overflows := bump c.overflows }

/-- A frame arrival on the chain port's receive side (R156). -/
def ChainPort.arrival (c : ChainPort) (bs : List Byte) : ChainPort :=
  match (typeOf bs).bind frameShape with
  | none => { c with typeErrors := bump c.typeErrors }
  | some (header, lo, hi) =>
    if bs.length < lo ∨ hi < bs.length then { c with lengthErrors := bump c.lengthErrors }
    else if lengthField bs ≠ bs.length - (header + 2) then { c with lengthErrors := bump c.lengthErrors }
    else if !checkPasses bs then { c with checkErrors := bump c.checkErrors }
    else c.goodFrame bs

/-- FRAME_ARRIVAL (R156). -/
def execFrameArrival (bs : List Byte) (s : State) : Result := .next { s with chain := s.chain.arrival bs }

/-- The chain link goes Down and its timer stops; nothing if it is Down (R155). -/
def ChainPort.goDown (c : ChainPort) : ChainPort :=
  if c.link = .up then { c with link := .down, timer := none } else c

/-- CHAIN_LOSS_OF_SIGNAL (R155). -/
def execChainLossOfSignal (s : State) : Result := .next { s with chain := s.chain.goDown }

/-- The chain link goes Down if its timer has run one link-loss time (R155). -/
def State.chainLinkExpiry (s : State) : State :=
  if timerDue (s.linkLossTime * nsPerMs) s.chain.timer then { s with chain := s.chain.goDown } else s

/-- CHAIN_LINK_LOSS_TIMER_EXPIRY (R155); before one link-loss time nothing happens. -/
def execChainLinkLossTimerExpiry (s : State) : Result := .next s.chainLinkExpiry

end Sys2Proof.Machine
end

