-- ==== Sys2Proof/Machine/Egress.lean ====
section
/-! DEFINITION. The Egress Arbiter: HOLD and RELEASE, the stall timer, grants and completions (R146 to R151, R157, R158, R176). -/

namespace Sys2Proof.Machine

/-- HOLD (R147). -/
def execHold (s : State) : Result :=
  .next (if s.hold = .notHeld then { s with hold := .held, stallTimer := some 0 } else s)

/-- RELEASE (R147). The choice it lets the arbiter make is the step GRANT (log 7). -/
def execRelease (s : State) : Result :=
  .next (if s.hold = .held then { s with hold := .notHeld, stallTimer := none } else s)

/-- The stall limit in ns. -/
def State.stallNs (s : State) : Nat := s.stallLimit * nsPerSecond

/-- The stall timer expires, if it is due: the expiry is delivered to the Emitter and the timer starts again (R148). -/
def State.stallTimerExpiry (s : State) : State :=
  if timerDue s.stallNs s.stallTimer then { s.stallExpiry with stallTimer := some 0 } else s

/-- STALL_TIMER_EXPIRY (R148); before one stall limit nothing happens. -/
def execStallTimerExpiry (s : State) : Result := .next s.stallTimerExpiry

/-- A notice packet as formed at the grant (R176, 11 "Answer and notice packets"). -/
def noticePacket (s : State) (cause : FlagSet) : List Byte :=
  withCheck (beBytes 1 0x55 ++ beBytes 2 8 ++ beBytes 1 s.unitAddress.toNat ++ beBytes 2 cause.toNat ++ beBytes 2 s.flags.toNat
    ++ beBytes 1 s.ref.state.toCode ++ beBytes 1 s.store.toCode ++ zeroBytes 2)

/-- The source the arbiter chooses, if one waits (R149, R150). -/
def State.chooseSource (s : State) : Option TxSource :=
  if s.answerQueue ≠ [] then some .answer
  else if s.noticeSlot.isSome then some .notice
  else
    match s.ownWaiting, !s.chain.buffer.isEmpty with
    | true, true =>
      match s.nextData with
      | .own => some .own
      | .passThrough => some .passThrough
    | true, false => some .own
    | false, true => some .passThrough
    | false, false => none

/-- The frame of a chosen source goes into transmission (R149, R150). -/
def State.grantSource (s : State) : TxSource → State
  | .answer =>
    match s.answerQueue with
    | a :: _ => { s with transmitting := some { source := .answer, bytes := a } }
    | [] => s
  | .notice =>
    match s.noticeSlot with
    | some cause => { s with transmitting := some { source := .notice, bytes := noticePacket s cause }, noticeSlot := none }
    | none => s
  | .own => { s.grantOwn with nextData := .passThrough }
  | .passThrough =>
    match s.chain.buffer with
    | f :: _ => { s with transmitting := some { source := .passThrough, bytes := f }, nextData := .own }
    | [] => s

/-- Whether the centre link is at a frame boundary and not held (R146, R147). -/
def State.canGrant (s : State) : Bool := decide (s.hold = .notHeld) && s.transmitting.isNone

/-- GRANT (R150): nothing while the link is held, a frame is in transmission, or no source waits. -/
def execGrant (s : State) : Result :=
  .next
    (if s.canGrant then
      match s.chooseSource with
      | some src => s.grantSource src
      | none => s
    else s)

/-- Whether a frame of a source is in transmission. -/
def State.sendingFrom (s : State) (src : TxSource) : Bool :=
  match s.transmitting with
  | some f => decide (f.source = src)
  | none => false

/-- FRAGMENT_COMPLETION (R136, R137, R139, R143). -/
def execFragmentCompletion (s : State) : Result :=
  .next (if s.sendingFrom .own then { s with transmitting := none }.completeFragment else s)

/-- ANSWER_COMPLETION (R149): the answer leaves the queue. -/
def execAnswerCompletion (s : State) : Result :=
  .next (if s.sendingFrom .answer then { s with transmitting := none, answerQueue := s.answerQueue.tail } else s)

/-- PASS_THROUGH_COMPLETION (R157, R158): the frame leaves the buffer; RELEASE outward as the count falls to 4. -/
def execPassThroughCompletion (s : State) : Result :=
  .next
    (if s.sendingFrom .passThrough then
      let rest := s.chain.buffer.tail
      { s with
        transmitting := none
        chain :=
          { s.chain with
            buffer := rest
            outwardHold := if rest.length = Config.bufferRelease then false else s.chain.outwardHold } }
    else s)

/-- NOTICE_COMPLETION (R176). -/
def execNoticeCompletion (s : State) : Result :=
  .next
    (if s.sendingFrom .notice then
      { s with transmitting := none, globals := { s.globals with noticesSent := bump s.globals.noticesSent } }
    else s)

end Sys2Proof.Machine
end

