-- ==== Sys2Proof/Machine/Reference.lean ====
section
/-! DEFINITION. The Reference Clock Unit (R41 to R57), the Withhold suspension and the close at running time. -/

namespace Sys2Proof.Machine

/-- A change of reference state raises REF-CHANGE; a handling that leaves the state as it was raises nothing (R56). -/
def State.setRef (s : State) (r : RefClock) : State :=
  if r.state = s.ref.state then { s with ref := r } else { s with ref := r }.raise .refChange

/-- The network time of a second (R45). -/
def secondNs (m : Nat) : Nat := m * nsPerSecond

/-- The mark error (R42). -/
def markError (r : RefClock) (m : Nat) : Int := (secondNs m : Int) - (r.ntNow : Int)

/-- A window comparison against a width in us: equality passes (R42). -/
def withinWindow (err : Int) (us : Nat) : Bool := decide (err.natAbs ≤ us * 1000)

/-- The unit enters Acquiring on a mark taken as a first mark: good count 1, a step, the mark timer from 0 (R46, R52, R54). -/
def RefClock.acquireFrom (r : RefClock) (m : Nat) : RefClock :=
  { r with
    ntNow := secondNs m, state := .acquiring, lastSecond := some m, goodCount := 1, rejectCount := 0, markTimer := some 0,
    holdoverTimer := none }

/-- A valid mark in Acquiring (R47). -/
def RefClock.markAcquiring (r : RefClock) (m : Nat) : RefClock :=
  let agrees := decide (1 ≤ r.goodCount) && decide (r.lastSecond.map (· + 1) = some m)
    && withinWindow (markError r m) (10 * r.lockWindow)
  let good := if agrees then r.goodCount + 1 else 1
  { r with
    ntNow := secondNs m
    state := if good = 3 then .locked else .acquiring
    lastSecond := some m
    goodCount := good
    rejectCount := if good = 3 then 0 else r.rejectCount
    markTimer := some 0 }

/-- The expected second number in Locked: the last plus one, none after 4,294,967,295 (R49). -/
def RefClock.expected (r : RefClock) : Option Nat :=
  match r.lastSecond with
  | some l => if l + 1 < 2 ^ 32 then some (l + 1) else none
  | none => none

/-- Whether a mark in Locked is in agreement with the expected second `x` (R49). -/
def RefClock.agrees (r : RefClock) (mark : Mark) (x : Nat) : Bool :=
  (match mark with
    | .valid m => decide (m.toNat = x)
    | .bare => true)
  && withinWindow (markError r x) r.lockWindow

/-- A rejected mark in Locked; the third in a row returns the unit to Acquiring (R49, R50). -/
def RefClock.reject (r : RefClock) : RefClock :=
  let last := match r.expected with
    | some x => some x
    | none => r.lastSecond
  if 3 ≤ r.rejectCount + 1 then
    { r with state := .acquiring, lastSecond := last, goodCount := 0, rejectCount := 0, markTimer := some 0 }
  else { r with lastSecond := last, rejectCount := r.rejectCount + 1, markTimer := some 0 }

/-- A mark in Locked: the unit after it, and whether it steps NT_now (R49, R50). -/
def RefClock.markLocked (r : RefClock) (mark : Mark) : RefClock × Bool :=
  match r.expected with
  | some x =>
    if r.agrees mark x then
      ({ r with ntNow := secondNs x, lastSecond := some x, rejectCount := 0, markTimer := some 0 }, true)
    else (r.reject, false)
  | none => (r.reject, false)

/-- The whole second NT_now is nearest to, a half rounding up (R52). -/
def RefClock.nearestSecond (r : RefClock) : Nat := (r.ntNow + 500000000) / nsPerSecond

/-- A valid mark in Holdover (R52). -/
def RefClock.markHoldover (r : RefClock) (m : Nat) : RefClock :=
  if m = r.nearestSecond ∧ withinWindow (markError r m) (100 * r.lockWindow) then
    { r with
      ntNow := secondNs m, state := .locked, lastSecond := some m, rejectCount := 0, markTimer := some 0,
      holdoverTimer := none }
  else r.acquireFrom m

/-- A mark in each reference state: the unit after it, and whether it steps NT_now (R46 to R54). -/
def RefClock.mark (r : RefClock) (mark : Mark) : RefClock × Bool :=
  match r.state, mark with
  | .free, .valid m => (r.acquireFrom m.toNat, true)
  | .free, .bare => (r, false)
  | .acquiring, .valid m => (r.markAcquiring m.toNat, true)
  | .acquiring, .bare => (r, false)
  | .locked, _ => r.markLocked mark
  | .holdover, .valid m => (r.markHoldover m.toNat, true)
  | .holdover, .bare => (r, false)
  | .failed, .valid m => (r.acquireFrom m.toNat, true)
  | .failed, .bare => (r, false)

/-- TIME_MARK (R42): the unit is set and the step made before the close evaluation, which every step delivers (R45). A Withhold
suspension signalled before the step takes effect first (R53, R55, log 12). -/
def execTimeMark (mark : Mark) (s : State) : Result :=
  let r := (s.ref.mark mark).1
  .next (if (s.ref.mark mark).2 then (s.withhold.setRef r).closeEvaluation else s.setRef r)

/-- The mark timer's expiry: Locked to Holdover (R51), Acquiring to Free (R48). -/
def RefClock.loseMarks (r : RefClock) : RefClock :=
  match r.state with
  | .locked => { r with state := .holdover, rejectCount := 0, markTimer := none, holdoverTimer := some 0 }
  | .acquiring => { r with state := .free, goodCount := 0, lastSecond := none, markTimer := none }
  | .free | .holdover | .failed => r

/-- MARK_TIMER_EXPIRY (R48, R51); before 1,500 ms nothing happens. -/
def execMarkTimerExpiry (s : State) : Result :=
  .next (if timerDue Config.markTimeout s.ref.markTimer then s.setRef s.ref.loseMarks else s)

/-- The holdover limit in ns. -/
def RefClock.holdoverNs (r : RefClock) : Nat := r.holdoverLimit * nsPerSecond

/-- The failure signal to the Epoch Store: under Withhold a store Ready or Starved at the signal is to be suspended (R55). The
suspension is a step of its own, WITHHOLD_SUSPENSION; only the placement of the packet in hand may come before it (log 12). -/
def State.signalFailure (s : State) : State :=
  if s.plan.failureAction = .withhold ∧ (s.store = .ready ∨ s.store = .starved) then { s with failureSignal := true } else s

/-- The holdover timer expires, if it is due: the unit enters Failed (R53). -/
def State.holdoverExpiry (s : State) : State :=
  if s.ref.state = .holdover ∧ timerDue s.ref.holdoverNs s.ref.holdoverTimer = true then
    ((s.setRef { s.ref with state := .failed, holdoverTimer := none }).raise .refFailed).signalFailure
  else s

/-- HOLDOVER_TIMER_EXPIRY (R53); before the holdover limit nothing happens. -/
def execHoldoverTimerExpiry (s : State) : Result := .next s.holdoverExpiry

/-- WITHHOLD_SUSPENSION (R55): a signal still to take effect suspends a Ready or Starved store. -/
def execWithholdSuspension (s : State) : Result := .next s.withhold

/-- Whether NT_now has reached E_lo's close time (R81). -/
def State.closeDueNow (s : State) : Bool :=
  match s.eLo with
  | some lo => decide (s.plan.closeTime lo ≤ s.ref.ntNow)
  | none => false

/-- CLOSE_TIME_REACHED (R81): the close evaluation runs when NT_now has reached E_lo's close time; before that nothing happens.
A Withhold suspension signalled before takes effect first (R55, log 12). -/
def execCloseTimeReached (s : State) : Result := .next (if s.closeDueNow then s.withhold.closeEvaluation else s)

end Sys2Proof.Machine
end

