-- ==== Sys2Proof/Machine/Settings.lean ====
section
/-! DEFINITION. Directives that set the plan, the reference, the links, the flags and the notice mask (R44, R75, R110, R173, R174). -/

namespace Sys2Proof.Machine

/-- Check 4 of SET-PLAN: every configured channel of every mapped station fits L (R75). -/
def State.channelsFit (s : State) (l : Nat) : Bool :=
  s.stations.all (fun p => p.2.channels.toList.all (fun ch => (samplesPerEpoch ch.rate l).isSome))

/-- Check 1 of SET-PLAN (R75). -/
def planInRange (l w h : Nat) : Bool :=
  (decide (l = 250) || decide (l = 500) || decide (l = 1000) || decide (l = 2000)) && decide (2 ≤ w) && decide (w ≤ 8)
    && decide (h ≤ 30000)

/-- SET-PLAN's own rule (R75). -/
def setPlanRule (s : State) (ps : List Byte) : DirResult :=
  let l := fieldAt ps 0 2
  let w := fieldAt ps 2 1
  let h := fieldAt ps 3 2
  match readFailureAction (fieldAt ps 5 1) with
  | none => .leave s .refusedRange
  | some fa =>
    if !planInRange l w h then .leave s .refusedRange
    else if s.store ≠ .idle then .leave s .refusedState
    else if w < (h + l - 1) / l + 2 then .leave s .refusedRange
    else if !s.channelsFit l then .leave s .refusedRange
    else .done { s with plan := { epochLength := l, windowDepth := w, hold := h, failureAction := fa } }

/-- SET_PLAN (R75). -/
def execSetPlan (s : State) : Result := .next (runDirective 0x02 6 noWait setPlanRule s)

/-- SET-REFERENCE's own rule (R44): a holdover timer that has run the new limit expires as the directive takes effect. -/
def setReferenceRule (s : State) (ps : List Byte) : DirResult :=
  let wl := fieldAt ps 0 2
  let limit := fieldAt ps 2 4
  if 1 ≤ wl ∧ wl ≤ 1000 ∧ 10 ≤ limit ∧ limit ≤ 86400 then
    .done { s with ref := { s.ref with lockWindow := wl, holdoverLimit := limit } }.holdoverExpiry
  else .leave s .refusedRange

/-- SET_REFERENCE (R44). -/
def execSetReference (s : State) : Result := .next (runDirective 0x03 6 noWait setReferenceRule s)

/-- A trunk port whose timer has run the link-loss time goes Down (R110). -/
def State.trunkExpiry (s : State) (p : Port) : State := if timerDue s.linkLossNs (s.trunk p).timer then s.portDown p else s

/-- SET-LINKS's own rule (R110, R148): timers that have run their new limit expire as the directive takes effect. -/
def setLinksRule (s : State) (ps : List Byte) : DirResult :=
  let loss := fieldAt ps 0 2
  let stall := fieldAt ps 2 1
  if 100 ≤ loss ∧ loss ≤ 5000 ∧ 1 ≤ stall ∧ stall ≤ 60 then
    let s1 := { s with linkLossTime := loss, stallLimit := stall }
    .done (((s1.trunkExpiry .a).trunkExpiry .b).chainLinkExpiry).stallTimerExpiry
  else .leave s .refusedRange

/-- SET_LINKS (R110). -/
def execSetLinks (s : State) : Result := .next (runDirective 0x04 3 noWait setLinksRule s)

/-- CLEAR-FLAGS's own rule (R173). -/
def clearFlagsRule (s : State) (ps : List Byte) : DirResult :=
  .done { s with flags := s.flags &&& ~~~readFlagSet ps } (beBytes 2 s.flags.toNat)

/-- CLEAR_FLAGS (R173). -/
def execClearFlags (s : State) : Result := .next (runDirective 0x11 2 noWait clearFlagsRule s)

/-- SET-NOTICE-MASK's own rule (R174). -/
def setNoticeMaskRule (s : State) (ps : List Byte) : DirResult := .done { s with noticeMask := readFlagSet ps }

/-- SET_NOTICE_MASK (R174). -/
def execSetNoticeMask (s : State) : Result := .next (runDirective 0x12 2 noWait setNoticeMaskRule s)

end Sys2Proof.Machine
end

