-- ==== Sys2Proof/Machine/Stations.lean ====
section
/-! DEFINITION. Directives on stations: mapping, channels, quarantine, correction records (R3 to R5, R11, R12, R17 to R19, R27 to R35). -/

namespace Sys2Proof.Machine

/-! ## Mapping -/

/-- An entry inserted at the place its code takes (R1). -/
def mapInsert (e : MapEntry) : List MapEntry → List MapEntry
  | [] => [e]
  | x :: t => if e.code < x.code then e :: x :: t else x :: mapInsert e t

/-- The entry of a slot removed (R1, R5). -/
def mapRemove (slot : Nat) (m : List MapEntry) : List MapEntry := m.filter (fun e => decide (e.slot ≠ slot))

/-- Whether a code is in the map (R3). -/
def mapHas (m : List MapEntry) (code : Nat) : Bool := m.any (fun e => decide (e.code = code))

/-- A station record as MAP-STATION sets it up (R4). -/
def freshStation (code : Nat) (mask : RouteMask) (limit : Nat) : Station :=
  { code := code, state := .configured, mask := mask, silenceLimit := limit, silence := none,
    channels := ⟨Channel.fresh, Channel.fresh, Channel.fresh, Channel.fresh⟩, current := Correction.default,
    previous := none, staged := none, counters := StationCounters.zero }

/-- MAP-STATION's own rule (R3, R4). -/
def mapStationRule (s : State) (ps : List Byte) : DirResult :=
  let code := fieldAt ps 0 2
  let slot := fieldAt ps 2 1
  let mask := readRouteMask (fieldAt ps 3 1)
  let limit := fieldAt ps 4 2
  if 191 < slot ∨ (mask.a || mask.b) = false ∨ limit < 1 ∨ 600 < limit then .leave s .refusedRange
  else if mapHas s.map code then .leave s .refusedRange
  else if Config.stationSlots ≤ s.map.length then .leave s .refusedBusy
  else if (s.station slot).isSome then .leave s .refusedState
  else
    .done ({ s with map := mapInsert { code := code, slot := slot } s.map }.putStation slot (freshStation code mask limit))

/-- MAP_STATION (R3). -/
def execMapStation (s : State) : Result := .next (runDirective 0x05 6 noWait mapStationRule s)

/-- A slot made Vacant and its entry removed from the map; with the store not Idle its Open segments are emptied (R5). -/
def State.unmap (s : State) (slot : Nat) : State :=
  let s' := { s with map := mapRemove slot s.map, stations := assocErase s.stations slot }
  if s.store = .idle then s' else s'.emptySlot slot

/-- UNMAP-STATION's own rule (R5). -/
def unmapStationRule (s : State) (ps : List Byte) : DirResult :=
  let slot := fieldAt ps 0 1
  if 191 < slot then .leave s .refusedRange
  else
    match s.station slot with
    | none => .leave s .refusedTarget
    | some st =>
      if st.state ≠ .quarantined ∧ s.store ≠ .idle then .leave s .refusedState
      else .done (s.unmap slot)

/-- UNMAP_STATION (R5). -/
def execUnmapStation (s : State) : Result := .next (runDirective 0x06 1 waitsForStation unmapStationRule s)

/-! ## Channels -/

/-- A channel with new settings: its window absent, its counters kept (R18). -/
def Channel.configure (ch : Channel) (rate : Nat) (word : SampleWord) (order : SampleOrder) : Channel :=
  { ch with rate := rate, word := word, order := order, window := none }

/-- A SET-CHANNEL that passes its checks; a changed rate code with the store not Idle empties the channel's Open segments and gives
them the new n (R18, R19). -/
def State.setChannel (s : State) (slot : Nat) (st : Station) (c : Fin 4) (rate : Nat) (word : SampleWord) (order : SampleOrder) :
    State :=
  let ch := st.channels.get c
  let s' := s.putStation slot { st with channels := st.channels.set c (ch.configure rate word order) }
  if s.store = .idle ∨ ch.rate = rate then s' else s'.emptyChannel slot c (nOf rate s.plan.epochLength)

/-- SET-CHANNEL's own rule (R17). -/
def setChannelRule (s : State) (ps : List Byte) : DirResult :=
  let slot := fieldAt ps 0 1
  let channel := fieldAt ps 1 1
  let rate := fieldAt ps 2 1
  match readSampleWord (fieldAt ps 3 1), readSampleOrder (fieldAt ps 4 1) with
  | some word, some order =>
    if h : slot ≤ 191 ∧ channel < 4 ∧ rate ≤ 10 then
      match s.station slot with
      | none => .leave s .refusedTarget
      | some st =>
        if st.state ≠ .configured ∧ st.state ≠ .quarantined ∧ s.store ≠ .idle then .leave s .refusedState
        else if (samplesPerEpoch rate s.plan.epochLength).isNone then .leave s .refusedRange
        else .done (s.setChannel slot st ⟨channel, h.2.1⟩ rate word order)
    else .leave s .refusedRange
  | _, _ => .leave s .refusedRange

/-- SET_CHANNEL (R17). -/
def execSetChannel (s : State) : Result := .next (runDirective 0x07 5 waitsForStation setChannelRule s)

/-! ## Quarantine -/

/-- QUARANTINE's own rule (R11). -/
def quarantineRule (s : State) (ps : List Byte) : DirResult :=
  let slot := fieldAt ps 0 1
  if 191 < slot then .leave s .refusedRange
  else
    match s.station slot with
    | none => .leave s .refusedTarget
    | some st =>
      if st.state = .quarantined then .leave s .noEffect
      else .done (s.putStation slot { st with state := .quarantined, silence := none })

/-- QUARANTINE (R11). -/
def execQuarantine (s : State) : Result := .next (runDirective 0x0B 1 waitsForStation quarantineRule s)

/-- UNQUARANTINE's own rule (R12). -/
def unquarantineRule (s : State) (ps : List Byte) : DirResult :=
  let slot := fieldAt ps 0 1
  if 191 < slot then .leave s .refusedRange
  else
    match s.station slot with
    | none => .leave s .refusedTarget
    | some st =>
      if st.state = .quarantined then
        .done (s.putStation slot
          { st with state := .configured, silence := none, channels := st.channels.mapAll (fun ch => { ch with window := none }) })
      else .leave s .noEffect

/-- UNQUARANTINE (R12). -/
def execUnquarantine (s : State) : Result := .next (runDirective 0x0C 1 waitsForStation unquarantineRule s)

/-! ## Correction records -/

/-- The ranges of R24 that STAGE-CORRECTION checks (R27). -/
def correctionInRange (offset drift : Int) (span : Nat) : Bool :=
  decide (-500000000000 ≤ offset) && decide (offset ≤ 500000000000) && decide (-250000 ≤ drift) && decide (drift ≤ 250000)
    && decide (1 ≤ span) && decide (span ≤ 86400)

/-- STAGE-CORRECTION's own rule (R27, R28). -/
def stageCorrectionRule (s : State) (ps : List Byte) : DirResult :=
  let slot := fieldAt ps 0 1
  let offset := signedOf 64 (fieldAt ps 1 8)
  let drift := signedOf 32 (fieldAt ps 9 4)
  let span := fieldAt ps 19 4
  if 191 < slot ∨ correctionInRange offset drift span = false then .leave s .refusedRange
  else
    match s.station slot with
    | none => .leave s .refusedTarget
    | some st =>
      .done (s.putStation slot
        { st with
          staged := some
            { offset := offset, drift := drift, refTime := fieldAt ps 13 6, span := span, version := fieldAt ps 23 2,
              isDefault := false, switch := none } })

/-- STAGE_CORRECTION (R27). -/
def execStageCorrection (s : State) : Result := .next (runDirective 0x08 25 waitsForStation stageCorrectionRule s)

/-- E_sw: the epoch of the network time of the switch time under the new current record (R31, R70). -/
def switchEpoch (p : Plan) (c : Correction) (switch : Nat) : Nat := netTime c switch / p.epochNs

/-- The retirement test at a commit (R32). -/
def State.retiresAtOnce (s : State) (eSw : Nat) : Bool :=
  match s.store, s.eLo with
  | .idle, _ => true
  | _, some lo => decide (eSw < lo)
  | _, none => false

/-- COMMIT-CORRECTION's own rule (R29, R30). -/
def commitCorrectionRule (s : State) (ps : List Byte) : DirResult :=
  let slot := fieldAt ps 0 1
  let switch := fieldAt ps 1 6
  if 191 < slot then .leave s .refusedRange
  else
    match s.station slot with
    | none => .leave s .refusedTarget
    | some st =>
      match st.staged with
      | none => .leave s .refusedState
      | some staged =>
        if st.previous.isSome then .leave s .refusedBusy
        else
          let current := { staged with switch := some switch }
          let eSw := switchEpoch s.plan current switch
          let retired := s.retiresAtOnce eSw
          .done
            (s.putStation slot
              { st with
                current := current
                previous := if retired then none else some { record := st.current, eSw := eSw }
                staged := none })
            (beBytes 6 eSw ++ flagByte retired ++ zeroBytes 1)

/-- COMMIT_CORRECTION (R29). -/
def execCommitCorrection (s : State) : Result := .next (runDirective 0x09 7 waitsForStation commitCorrectionRule s)

/-- DISCARD-STAGED's own rule (R35). -/
def discardStagedRule (s : State) (ps : List Byte) : DirResult :=
  let slot := fieldAt ps 0 1
  if 191 < slot then .leave s .refusedRange
  else
    match s.station slot with
    | none => .leave s .refusedTarget
    | some st =>
      if st.staged.isNone then .leave s .noEffect else .done (s.putStation slot { st with staged := none })

/-- DISCARD_STAGED (R35). -/
def execDiscardStaged (s : State) : Result := .next (runDirective 0x0A 1 waitsForStation discardStagedRule s)

end Sys2Proof.Machine
end

