-- ==== Sys2Proof/Machine/Own.lean ====
section
/-! DEFINITION. The steps of the part's own that are possible now, and the passing of running time (R41; log 2, log 3). -/

namespace Sys2Proof.Machine

/-- Whether an entry must wait before it is taken (R163). -/
def State.mustWait (s : State) (e : Entry) : Bool :=
  match commandOf e.code.toNat with
  | .unmapStation | .discardStaged | .quarantine | .unquarantine => decide (e.params.length = 1) && waitsForStation s e.params
  | .setChannel => decide (e.params.length = 5) && waitsForStation s e.params
  | .stageCorrection => decide (e.params.length = 25) && waitsForStation s e.params
  | .commitCorrection => decide (e.params.length = 7) && waitsForStation s e.params
  | .restart => decide (e.params.length = 0) && waitsForPath s e.params
  | _ => false

/-- The step that the Management Agent can make now (R161, R163). -/
def State.agentStep (s : State) : List Instr :=
  match s.agent with
  | .executing p => (p.todo.head?.map (fun e => commandOf e.code.toNat)).toList
  | .held p => ((p.todo.head?.filter (fun e => !s.mustWait e)).map (fun e => commandOf e.code.toNat)).toList
  | .idle | .waiting =>
    if s.inbound ≠ [] ∧ s.answerQueue.length < Config.answerDepth then [.beginPacket] else []

/-- A step under a condition. -/
def stepIf (c : Bool) (i : Instr) : List Instr := if c then [i] else []

/-- The steps that need no time: a take (R112), which a waiting directive and a Withhold suspension precede (R13, R38, R118,
R55), a hand-off (R117), a Withhold suspension, a grant (R150), the agent's. -/
def State.promptSteps (s : State) : List Instr :=
  stepIf (s.pathFree && s.takePort.isSome) .arbiterTake ++ stepIf s.inHand.isSome .handOff
    ++ stepIf s.failureSignal .withholdSuspension ++ stepIf (s.canGrant && s.chooseSource.isSome) .grant ++ s.agentStep

/-- An expiry and the running time, in ns, until a running timer reaches its limit. -/
def timed (i : Instr) (limit : Nat) (t : Timer) : List (Instr × Nat) := (t.map (fun e => (i, limit - e))).toList

/-- The steps that running time brings, each with the time that remains (R8, R51, R53, R81, R107, R148, R155). -/
def State.timedSteps (s : State) : List (Instr × Nat) :=
  timed (.linkLossTimerExpiry .a) s.linkLossNs s.portA.timer ++ timed (.linkLossTimerExpiry .b) s.linkLossNs s.portB.timer
    ++ timed .chainLinkLossTimerExpiry s.linkLossNs s.chain.timer ++ timed .stallTimerExpiry s.stallNs s.stallTimer
    ++ timed .markTimerExpiry Config.markTimeout s.ref.markTimer
    ++ timed .holdoverTimerExpiry s.ref.holdoverNs s.ref.holdoverTimer
    ++ ((s.eLo.map (fun lo => (Instr.closeTimeReached, s.plan.closeTime lo - s.ref.ntNow))).toList)
    ++ s.stations.flatMap (fun p => timed (.silenceTimerExpiry p.1) p.2.silenceNs p.2.silence)

/-- Every step of the part's own that is possible now. -/
def State.ownSteps (s : State) : List Instr :=
  s.promptSteps ++ (s.timedSteps.filter (fun p => decide (p.2 = 0))).map (·.1)

/-- NT_now after `d` ns of running time (R41); past its 64 bits a free value (log 13). -/
def RefClock.ntAfter (r : RefClock) (d : Nat) : Nat :=
  if r.ntNow + d < 2 ^ 64 then r.ntNow + d else Config.ntPastRange (r.ntNow + d) % 2 ^ 64

/-- `d` ns of running time: NT_now and every running timer advance (R41). -/
def State.run (s : State) (d : Nat) : State :=
  { s with
    ref :=
      { s.ref with
        ntNow := s.ref.ntAfter d
        markTimer := runTimer d s.ref.markTimer
        holdoverTimer := runTimer d s.ref.holdoverTimer }
    portA := { s.portA with timer := runTimer d s.portA.timer }
    portB := { s.portB with timer := runTimer d s.portB.timer }
    chain := { s.chain with timer := runTimer d s.chain.timer }
    stallTimer := runTimer d s.stallTimer
    stations := assocMap (fun st => { st with silence := runTimer d st.silence }) s.stations }

/-- How much running time an idle step lets pass: the quantum, or less when a timed step falls due before (log 2). -/
def State.idleTime (s : State) : Nat := (s.timedSteps.map (·.2)).foldl min s.quantum

/-- The step on an empty queue: a step of the part's own that is possible is put in the queue, the free value choosing among
several (log 3); with none possible, running time passes (log 2). -/
def State.idleStep (s : State) : State :=
  match s.ownSteps with
  | [] => s.run s.idleTime
  | [c] => { s with pending := [c] }
  | c :: c' :: cs =>
    { s with
      pending := [((c :: c' :: cs)[Config.tieBreak s.ties % (cs.length + 2)]?).getD c]
      ties := s.ties + 1 }

end Sys2Proof.Machine
end

