-- ==== Sys2Proof/Machine/Dispatch.lean ====
section
/-! DEFINITION. One arm for each constructor of `Instr`, each one call of its meaning. -/

namespace Sys2Proof.Machine

def exec (i : Instr) (s : State) : Host.Outcome State Fault Refusal :=
  match i with
  | .powerOnReset straps => Sys2Proof.Machine.execPowerOnReset straps s
  | .packetArrival port bytes => Sys2Proof.Machine.execPacketArrival port bytes s
  | .lossOfSignalIndication port => Sys2Proof.Machine.execLossOfSignal port s
  | .linkLossTimerExpiry port => Sys2Proof.Machine.execLinkLossTimerExpiry port s
  | .arbiterTake => Sys2Proof.Machine.execArbiterTake s
  | .handOff => Sys2Proof.Machine.execHandOff s
  | .silenceTimerExpiry slot => Sys2Proof.Machine.execSilenceTimerExpiry slot s
  | .timeMark mark => Sys2Proof.Machine.execTimeMark mark s
  | .markTimerExpiry => Sys2Proof.Machine.execMarkTimerExpiry s
  | .holdoverTimerExpiry => Sys2Proof.Machine.execHoldoverTimerExpiry s
  | .withholdSuspension => Sys2Proof.Machine.execWithholdSuspension s
  | .closeTimeReached => Sys2Proof.Machine.execCloseTimeReached s
  | .stallTimerExpiry => Sys2Proof.Machine.execStallTimerExpiry s
  | .directivePacketArrival bytes => Sys2Proof.Machine.execDirectivePacketArrival bytes s
  | .forwardComplete => Sys2Proof.Machine.execForwardComplete s
  | .hold => Sys2Proof.Machine.execHold s
  | .release => Sys2Proof.Machine.execRelease s
  | .frameArrival bytes => Sys2Proof.Machine.execFrameArrival bytes s
  | .chainLossOfSignal => Sys2Proof.Machine.execChainLossOfSignal s
  | .chainLinkLossTimerExpiry => Sys2Proof.Machine.execChainLinkLossTimerExpiry s
  | .grant => Sys2Proof.Machine.execGrant s
  | .fragmentCompletion => Sys2Proof.Machine.execFragmentCompletion s
  | .answerCompletion => Sys2Proof.Machine.execAnswerCompletion s
  | .passThroughCompletion => Sys2Proof.Machine.execPassThroughCompletion s
  | .noticeCompletion => Sys2Proof.Machine.execNoticeCompletion s
  | .beginPacket => Sys2Proof.Machine.execBeginPacket s
  | .unknown => Sys2Proof.Machine.execUnknown s
  | .identify => Sys2Proof.Machine.execIdentify s
  | .setPlan => Sys2Proof.Machine.execSetPlan s
  | .setReference => Sys2Proof.Machine.execSetReference s
  | .setLinks => Sys2Proof.Machine.execSetLinks s
  | .mapStation => Sys2Proof.Machine.execMapStation s
  | .unmapStation => Sys2Proof.Machine.execUnmapStation s
  | .setChannel => Sys2Proof.Machine.execSetChannel s
  | .stageCorrection => Sys2Proof.Machine.execStageCorrection s
  | .commitCorrection => Sys2Proof.Machine.execCommitCorrection s
  | .discardStaged => Sys2Proof.Machine.execDiscardStaged s
  | .quarantine => Sys2Proof.Machine.execQuarantine s
  | .unquarantine => Sys2Proof.Machine.execUnquarantine s
  | .readStation => Sys2Proof.Machine.execReadStation s
  | .readCounters => Sys2Proof.Machine.execReadCounters s
  | .readStore => Sys2Proof.Machine.execReadStore s
  | .readFlags => Sys2Proof.Machine.execReadFlags s
  | .clearFlags => Sys2Proof.Machine.execClearFlags s
  | .setNoticeMask => Sys2Proof.Machine.execSetNoticeMask s
  | .storeStart => Sys2Proof.Machine.execStoreStart s
  | .storeStop => Sys2Proof.Machine.execStoreStop s
  | .storeSuspend => Sys2Proof.Machine.execStoreSuspend s
  | .storeResume => Sys2Proof.Machine.execStoreResume s
  | .restart => Sys2Proof.Machine.execRestart s

end Sys2Proof.Machine
end

