-- ==== Sys2Proof/Machine/Step.lean ====
section
/-! DEFINITION. One step: the command at the front of the queue, or an idle step. -/

namespace Sys2Proof.Machine

/-- The command at the front of the queue is executed on the state with the queue's rest. On an empty queue `State.idleStep`:
a step of the part's own, or running time (log 2, log 3). -/
def step (s : State) : Host.Outcome State Fault Refusal :=
  match s.pending with
  | [] => .next s.idleStep
  | c :: rest => exec c { s with pending := rest }

/-- The state with the command that a word spells put at the front of its queue. No row of the table gives bits, so no word spells
one and the state is unchanged (log 20). -/
def State.withFetchWord (s : State) (nbits w : Nat) : State :=
  match decodeTableWord nbits w with
  | some c => { s with pending := c :: s.pending }
  | none => s

end Sys2Proof.Machine
end

