-- ==== Sys2Proof/Safety.lean ====
section
/-! DEFINITION. What holds of the part at every moment, in the terms the statements use. -/

namespace Sys2Proof.Machine

/-- R1: the map ascends strictly by code, holds at most 192 entries, and its entries and the station records that are not Vacant
name each other, one to one. -/
structure MapInv (s : State) : Prop where
  ascending : s.map.Pairwise (fun x y => x.code < y.code)
  atMost    : s.map.length ≤ Config.stationSlots
  codes     : ∀ e ∈ s.map, e.code < 65536 ∧ e.slot < Config.stationSlots
  named     : ∀ e ∈ s.map, ∃ st, s.station e.slot = some st ∧ st.code = e.code
  distinct  : s.map.Pairwise (fun x y => x.slot ≠ y.slot)
  listed    : ∀ slot st, s.station slot = some st → ∃ e ∈ s.map, e.slot = slot ∧ e.code = st.code

/-- The capacities of the FIFOs, queues and buffers (R103, R146, R154, R157, R160), with the place that a packet in execution has
reserved in the answer queue and the directive it has yet to take (R161). -/
structure CapacityInv (s : State) : Prop where
  fifoA    : s.portA.fifo.length ≤ Config.fifoDepth
  fifoB    : s.portB.fifo.length ≤ Config.fifoDepth
  inbound  : s.inbound.length ≤ Config.inboundDepth
  answers  : s.answerQueue.length ≤ Config.answerDepth
  reserved : s.agent.progress.isSome = true → s.answerQueue.length < Config.answerDepth
  work     : ∀ p, s.agent.progress = some p → p.todo ≠ []
  buffer   : s.chain.buffer.length ≤ Config.bufferDepth
  forward  : s.chain.forwardQueue.length ≤ Config.forwardDepth

/-- A timer that is stopped, or has run no longer than its limit. -/
def timerWithin (limit : Nat) (t : Timer) : Prop := ∀ e, t = some e → e ≤ limit

/-- No timer overruns its limit, and each runs exactly in the state its rule gives (R8, R51, R53, R107, R148, R155). -/
structure TimerInv (s : State) : Prop where
  portA    : timerWithin s.linkLossNs s.portA.timer ∧ (s.portA.timer.isSome = true ↔ s.portA.link = .up)
  portB    : timerWithin s.linkLossNs s.portB.timer ∧ (s.portB.timer.isSome = true ↔ s.portB.link = .up)
  chain    : timerWithin s.linkLossNs s.chain.timer ∧ (s.chain.timer.isSome = true ↔ s.chain.link = .up)
  stall    : timerWithin s.stallNs s.stallTimer ∧ (s.stallTimer.isSome = true ↔ s.hold = .held)
  mark     : timerWithin Config.markTimeout s.ref.markTimer
    ∧ (s.ref.markTimer.isSome = true ↔ s.ref.state = .locked ∨ s.ref.state = .acquiring)
  holdover : timerWithin s.ref.holdoverNs s.ref.holdoverTimer ∧ (s.ref.holdoverTimer.isSome = true ↔ s.ref.state = .holdover)
  silence  : ∀ slot st, (slot, st) ∈ s.stations →
    timerWithin st.silenceNs st.silence ∧ (st.silence.isSome = true ↔ st.state = .tracking)

/-- All counters of a trunk port are 32-bit quantities (R111). -/
def TrunkPort.countersFit (t : TrunkPort) : Prop := ∀ c ∈ t.counterList, c ≤ counterMax

/-- Every counter of the part is a 32-bit quantity ("Counters", 00_scope; R22, R111, R159, R177). -/
structure CounterInv (s : State) : Prop where
  portA    : s.portA.countersFit
  portB    : s.portB.countersFit
  chain    : ∀ c ∈ s.chain.counterList, c ≤ counterMax
  globals  : ∀ c ∈ s.globals.counterList, c ≤ counterMax
  stations : ∀ slot st, (slot, st) ∈ s.stations → ∀ c ∈ st.counterList, c ≤ counterMax

/-- The pages the epoch records name, record by record. -/
def State.namedPages (s : State) : List PageNo := s.records.flatMap (fun p => p.2.pageList)

/-- R85: every page is on the free-page list or named by exactly one page entry, and never both. The station records, the epoch
records, their segments and page entries are listed under rising keys. -/
structure PageInv (s : State) : Prop where
  stationsSorted : assocSorted s.stations = true
  recordsSorted  : assocSorted s.records = true
  segmentsSorted : ∀ i r, (i, r) ∈ s.records → assocSorted r.segments = true
  entriesSorted  : ∀ i r, (i, r) ∈ s.records → ∀ k g, (k, g) ∈ r.segments → assocSorted g.pages = true
  partition      : (s.freePages ++ s.namedPages).Perm (pagesFrom Config.pages 0)

/-- The ranges of the epoch plan (R74). -/
def Plan.inRange (p : Plan) : Prop := planInRange p.epochLength p.windowDepth p.hold = true

/-- The epoch numbers of the closed-epoch queue, oldest first (R82). -/
def State.queuedEpochs (s : State) : List Nat := s.closedQueue.map s.epochOf

/-- R55, R74, R77, R80 to R84, R93, R128: what the window, the closed-epoch queue and the Emitter hold of the sixteen epoch records. -/
structure StoreInv (s : State) : Prop where
  plan      : s.plan.inRange
  sorted    : assocSorted s.records = true
  sixteen   : ∀ i r, (i, r) ∈ s.records → i < Config.epochRecords
  present   : s.eLo.isSome = true ↔ s.store ≠ .idle
  window    : ∀ lo, s.eLo = some lo →
    s.openRecords.map (·.2.number) = List.range' lo s.openCount ∧ s.openCount ≤ s.plan.windowDepth
  noWindow  : s.eLo = none → s.openCount = 0
  queued    : ∀ i, i ∈ s.closedQueue ↔ ∃ r, assocGet s.records i = some r ∧ r.state = .closed
  rising    : s.queuedEpochs.Pairwise (· < ·)
  below     : ∀ lo, s.eLo = some lo → ∀ e ∈ s.queuedEpochs, e < lo
  signal    : s.failureSignal = true →
    s.ref.state = .failed ∧ s.plan.failureAction = .withhold ∧ (s.store = .ready ∨ s.store = .starved)
  emitting  : ∀ i, (∃ r, assocGet s.records i = some r ∧ r.state = .emitting) ↔ ∃ e, s.emitter.emission = some e ∧ e.record = i

/-- The ranges of a correction record's fields (R24). -/
structure Correction.InRange (c : Correction) : Prop where
  offset  : -500000000000 ≤ c.offset ∧ c.offset ≤ 500000000000
  drift   : -250000 ≤ c.drift ∧ c.drift ≤ 250000
  refTime : c.refTime < 2 ^ 48
  span    : 1 ≤ c.span ∧ c.span ≤ 86400
  version : c.version < 2 ^ 16
  switch  : ∀ t, c.switch = some t → t < 2 ^ 48

/-- R24, R25, R33, R34: the ranges of every correction record; and a previous record is held only with a current record that carries
a switch time, while the store is not Idle, and with an E_sw that E_lo has not passed. -/
structure CorrectionInv (s : State) : Prop where
  window   : s.eLo.isSome = true ↔ s.store ≠ .idle
  current  : ∀ slot st, (slot, st) ∈ s.stations → st.current.InRange
  staged   : ∀ slot st, (slot, st) ∈ s.stations → ∀ c, st.staged = some c → c.InRange ∧ c.isDefault = false ∧ c.switch = none
  previous : ∀ slot st, (slot, st) ∈ s.stations → ∀ p, st.previous = some p →
    p.record.InRange ∧ st.current.switch.isSome = true ∧ ∃ lo, s.eLo = some lo ∧ lo ≤ p.eSw

/-- R43, R46 to R54: what the Reference Clock Unit holds in each of its states, and the ranges of its items. -/
structure RefInv (s : State) : Prop where
  clock    : s.ref.ntNow < 2 ^ 64
  second   : ∀ m, s.ref.lastSecond = some m → m < 2 ^ 32
  free     : s.ref.state = .free → s.ref.goodCount = 0 ∧ s.ref.lastSecond = none
  notFree  : s.ref.state ≠ .free → s.ref.lastSecond.isSome = true
  counting : s.ref.state = .acquiring → s.ref.goodCount ≤ 2
  good     : s.ref.state = .locked ∨ s.ref.state = .holdover ∨ s.ref.state = .failed → s.ref.goodCount = 3
  rejects  : s.ref.rejectCount ≤ 2 ∧ (s.ref.state ≠ .locked → s.ref.rejectCount = 0)
  limits   : 1 ≤ s.ref.lockWindow ∧ s.ref.lockWindow ≤ 1000 ∧ 10 ≤ s.ref.holdoverLimit ∧ s.ref.holdoverLimit ≤ 86400

/-- R15, R74, R75: the plan is in range, its window is deep enough for its hold allowance, and every channel's rate code fits it. -/
structure PlanInv (s : State) : Prop where
  range : s.plan.inRange
  depth : (s.plan.hold + s.plan.epochLength - 1) / s.plan.epochLength + 2 ≤ s.plan.windowDepth
  fits  : ∀ slot st, (slot, st) ∈ s.stations → ∀ c, (samplesPerEpoch (st.channels.get c).rate s.plan.epochLength).isSome = true

/-- The n of channel `c` of a table slot under the plan in force; 0 for a Vacant slot (R15, R78). -/
def State.channelN (s : State) (slot : Nat) (c : Fin 4) : Nat :=
  match s.station slot with
  | some st => nOf (st.channels.get c).rate s.plan.epochLength
  | none => 0

/-- A segment of an Open record (R79, R91): the fill count is the number of marks, a mark lies below n and names a slot whose page is
present, and an unfilled segment has no residual and no flags. -/
structure Segment.Sound (g : Segment) : Prop where
  fill  : g.fill = (List.range 512).countP (fun k => g.filled.getLsbD k)
  marks : ∀ k, g.filled.getLsbD k = true → k < g.n ∧ (assocGet g.pages (k / 64)).isSome = true
  none  : g.residual = Option.none ↔ g.fill = 0
  flags : g.fill = 0 → g.quality = 0

/-- R19, R79, R90: every segment of an Open record is sound and has its channel's n; and the channel of the packet in hand is
configured (R13, R115). -/
structure SegmentInv (s : State) : Prop where
  segments : ∀ i r, (i, r) ∈ s.records → r.state = .opened → ∀ slot c,
    (r.segment slot c).n = s.channelN slot c ∧ (r.segment slot c).Sound
  hand     : ∀ p, s.inHand = some p → 0 < s.channelN p.slot p.channel

/-! ## The packet that a directive command takes -/

/-- The agent's current entry is `e`, of directive `code` and with that directive's parameter length; `rest` follows it (R163). -/
structure Current (s : State) (p : Progress) (e : Entry) (rest : List Entry) (code length : Nat) : Prop where
  progress : s.agent.progress = some p
  todo     : p.todo = e :: rest
  code     : e.code.toNat = code
  length   : e.params.length = length

/-- As `Current`, with no Withhold suspension still to take effect, which would be taken first (R55). -/
structure Takes (s : State) (p : Progress) (e : Entry) (rest : List Entry) (code length : Nat) : Prop
    extends Current s p e rest code length where
  settled  : s.failureSignal = false

/-- The acceptance arbiter can take the packet `bs` from port `p` now (R112): no packet is in hand, no directive still waits for
the end of a handling (R13, R38, R118), and no Withhold suspension is still to take effect (R55). -/
structure TakesPacket (s : State) (p : Port) (bs : List Byte) : Prop where
  free    : s.inHand = none
  notHeld : s.agent.isHeld = false
  settled : s.failureSignal = false
  head    : (s.trunk p).fifo.head? = some bs
  turn    : p = s.nextPort ∨ p = otherPort s.nextPort ∧ (s.trunk s.nextPort).fifo = []

/-- The channel and format check passes for channel `c` (R115). -/
structure FormatOk (st : Station) (pk : StationPacket) (c : Fin 4) : Prop where
  channel    : pk.channel = c.val
  configured : (st.channels.get c).rate ≠ 0
  count      : 1 ≤ pk.count ∧ pk.count ≤ 64
  length     : pk.length = pk.count * (st.channels.get c).word.width

/-! ## Where placement stores -/

/-- The address of the word that a sample at global slot `gs` is stored to in state `s`, if it is placed (R90, R91). -/
def State.sampleAddress (s : State) (p : InHand) (n gs : Nat) : Option Nat :=
  let lo := s.eLo.getD 0
  if gs / n < lo ∨ lo + s.plan.windowDepth - 1 < gs / n then none
  else
    match openRecord s.records (gs / n) with
    | none => none
    | some (_, r) =>
      let g := r.segment p.slot p.channel
      let slot := gs % n
      if g.filled.getLsbD slot then none
      else
        match assocGet g.pages (slot / 64), s.store, s.freePages with
        | some page, _, _ => some (wordAddress page (slot % 64))
        | none, .ready, page :: _ => some (wordAddress page (slot % 64))
        | none, _, _ => none

/-- The addresses of the words that a packet's samples are stored to, each in the state that the samples before it leave (R89). -/
def storeAddresses (p : InHand) (n : Nat) : (gs : Nat) → List Sample → State → List Nat
  | _, [], _ => []
  | gs, v :: vs, s => (s.sampleAddress p n gs).toList ++ storeAddresses p n (gs + 1) vs (s.placeSample p n gs v)

end Sys2Proof.Machine
end

