-- ==== Sys2Proof/Certificates/Slice0/Obligations.lean ====
section
/-! DEFINITION. The statements for the provers. Where a statement rests on a choice of the model its docstring names the log entry. -/

open Sys2Proof Sys2Proof.Machine

/-! ## Steps, time, reset -/

/-- A step is the command at the front of the queue, executed on the state with the queue's rest. -/
def Obligations.StepTakesFrontCommand : Prop :=
  ∀ (c : Instr) (rest : List Instr) (s : State), step { s with pending := c :: rest } = exec c { s with pending := rest }

/-- R41 of running time; that it passes on an empty queue when the part has no step of its own, and that such a step is put in the
queue first, are the model's choices (logs 2 and 3). -/
def Obligations.IdleStepPassesTime : Prop :=
  (∀ s : State, s.pending = [] →
    (s.ownSteps = [] → step s = .next (s.run s.idleTime)) ∧
    (s.ownSteps ≠ [] → ∃ c ∈ s.ownSteps, ∃ k, (k = s.ties ∨ k = s.ties + 1) ∧
      step s = .next { s with pending := [c], ties := k })) ∧
  (∀ (s : State) (d : Nat), s.ref.ntNow + d < 2 ^ 64 →
    s.run d =
      { s with
        ref :=
          { s.ref with
            ntNow := s.ref.ntNow + d, markTimer := s.ref.markTimer.map (· + d),
            holdoverTimer := s.ref.holdoverTimer.map (· + d) }
        portA := { s.portA with timer := s.portA.timer.map (· + d) }
        portB := { s.portB with timer := s.portB.timer.map (· + d) }
        chain := { s.chain with timer := s.chain.timer.map (· + d) }
        stallTimer := s.stallTimer.map (· + d)
        stations := (s.run d).stations } ∧
    ∀ slot, (s.run d).station slot = (s.station slot).map (fun st => { st with silence := st.silence.map (· + d) }))

/-- R1, R23, R43, R74, R76, R85, R93, R103, R110, R112, R113, R127, R146, R155, R160, R161, R172, R174, R175, R177: the values after
power-on reset. The model's own fields keep theirs (logs 2 and 3). -/
def Obligations.PowerOnResetValues : Prop :=
  ∀ (straps : BitVec 4) (s : State), ∃ t, exec (.powerOnReset straps) s = .next t ∧
    t.pending = s.pending ∧ t.quantum = s.quantum ∧ t.ties = s.ties ∧ t.unitAddress = straps ∧
    (∀ p, (t.trunk p).link = .down ∧ (t.trunk p).timer = none ∧ (t.trunk p).fifo = [] ∧
      (t.trunk p).goodPackets = 0 ∧ (t.trunk p).lengthErrors = 0 ∧ (t.trunk p).checkErrors = 0 ∧ (t.trunk p).overflows = 0 ∧
      (t.trunk p).unknownStation = 0) ∧
    t.linkLossTime = 1000 ∧ t.nextPort = .a ∧ t.inHand = none ∧ t.map = [] ∧ (∀ slot, t.station slot = none) ∧
    t.ref.ntNow = 0 ∧ t.ref.state = .free ∧ t.ref.lastSecond = none ∧ t.ref.goodCount = 0 ∧ t.ref.rejectCount = 0 ∧
    t.ref.markTimer = none ∧ t.ref.holdoverTimer = none ∧ t.ref.lockWindow = 10 ∧ t.ref.holdoverLimit = 600 ∧
    t.plan.epochLength = 1000 ∧ t.plan.windowDepth = 4 ∧ t.plan.hold = 2000 ∧ t.plan.failureAction = .goOn ∧
    t.store = .idle ∧ t.rememberedStarved = false ∧ t.eLo = none ∧ t.pendingSkip = 0 ∧ t.records = [] ∧
    t.freePages = (List.range 16384).map (BitVec.ofNat 14) ∧ t.closedQueue = [] ∧ t.emitter = .idle ∧
    t.hold = .notHeld ∧ t.stallTimer = none ∧ t.stallLimit = 10 ∧ t.answerQueue = [] ∧ t.noticeSlot = none ∧
    t.nextData = .own ∧ t.transmitting = none ∧
    t.chain.link = .down ∧ t.chain.timer = none ∧ t.chain.buffer = [] ∧ t.chain.outwardHold = false ∧ t.chain.forwardQueue = [] ∧
    t.chain.outgoing = none ∧ (∀ c ∈ t.chain.counterList, c = 0) ∧
    t.inbound = [] ∧ t.agent = .idle ∧ t.flags = 0 ∧ t.noticeMask = 0 ∧ (∀ c ∈ t.globals.counterList, c = 0)

/-! ## Trunk ports -/

/-- R104, R105: the four frame checks of an arrival in their order, and what a good packet does. -/
def Obligations.PacketArrivalFrameChecks : Prop :=
  ∀ (p : Port) (bs : List Byte) (s : State),
    exec (.packetArrival p bs) s = .next (s.setTrunk p (
      if bs.length < 20 ∨ 274 < bs.length ∨ fieldAt bs 0 1 ≠ 0x51 ∨ fieldAt bs 1 2 ≠ bs.length - 18 then
        { s.trunk p with lengthErrors := bump (s.trunk p).lengthErrors }
      else if onesAdd (checkSum 0 (bs.take (bs.length - 2))) (fieldAt bs (bs.length - 2) 2) ≠ 0xFFFF then
        { s.trunk p with checkErrors := bump (s.trunk p).checkErrors }
      else if (s.trunk p).fifo.length < 32 then
        { s.trunk p with
          goodPackets := bump (s.trunk p).goodPackets, link := .up, timer := some 0, fifo := (s.trunk p).fifo ++ [bs] }
      else
        { s.trunk p with
          goodPackets := bump (s.trunk p).goodPackets, link := .up, timer := some 0,
          overflows := bump (s.trunk p).overflows }))

/-- R10, R107, R108, R109: what taking an Up port Down does, by loss of signal or by a timer that has run one link-loss time. -/
def Obligations.TrunkPortGoesDown : Prop :=
  ∀ (p : Port) (s : State) (c : Instr), (s.trunk p).link = .up →
    (c = .lossOfSignalIndication p ∨
      c = .linkLossTimerExpiry p ∧ ∃ e, (s.trunk p).timer = some e ∧ s.linkLossTime * 1000000 ≤ e) →
    let s1 := (s.setTrunk p { s.trunk p with link := .down, timer := none }).raise (trunkDownFlag p)
    let silenced : Station → Prop := fun st =>
      st.state = .tracking ∧ ¬ ∃ q, st.mask.has q = true ∧ (s1.trunk q).link = .up
    ∃ t, exec c s = .next t ∧
      (∀ slot st, s.station slot = some st → silenced st → t.station slot = some { st with state := .silent, silence := none }) ∧
      (∀ slot st, s.station slot = some st → ¬ silenced st → t.station slot = some st) ∧
      (∀ slot, s.station slot = none → t.station slot = none) ∧
      ((∃ slot st, s.station slot = some st ∧ silenced st) →
        t = { s1.raise .stationSilent with stations := t.stations }) ∧
      ((∀ slot st, (slot, st) ∈ s.stations → ¬ silenced st) → t = { s1 with stations := t.stations })

/-- R8, R48, R51, R53, R55: the expiries of a silence timer, the mark timer and the holdover timer, and the Withhold suspension.
A signal still to take effect is settled before the next mark that steps NT_now, close, take or directive; only the hand-off of the
packet in hand may come first. That the signal stands in a field of its own until then is the model's (log 12). -/
def Obligations.SilenceAndReferenceTimers : Prop :=
  (∀ (s : State) (slot : Nat) (st : Station) (e : Nat), s.station slot = some st → st.state = .tracking →
     st.silence = some e → st.silenceLimit * 1000000000 ≤ e →
     exec (.silenceTimerExpiry slot) s =
       .next ((s.putStation slot { st with state := .silent, silence := none }).raise .stationSilent)) ∧
  ((∀ (s : State) (e : Nat), s.ref.markTimer = some e → 1500000000 ≤ e →
     (s.ref.state = .locked → exec .markTimerExpiry s =
       .next (s.setRef { s.ref with state := .holdover, rejectCount := 0, markTimer := none, holdoverTimer := some 0 })) ∧
     (s.ref.state = .acquiring → exec .markTimerExpiry s =
       .next (s.setRef { s.ref with state := .free, goodCount := 0, lastSecond := none, markTimer := none }))) ∧
   (∀ (s : State) (e : Nat), s.ref.state = .holdover → s.ref.holdoverTimer = some e →
     s.ref.holdoverLimit * 1000000000 ≤ e →
     exec .holdoverTimerExpiry s =
       .next { (s.setRef { s.ref with state := .failed, holdoverTimer := none }).raise .refFailed with
         failureSignal :=
           s.failureSignal || decide (s.plan.failureAction = .withhold ∧ (s.store = .ready ∨ s.store = .starved)) }) ∧
   ∀ s : State, s.failureSignal = true →
     (s.store = .ready ∨ s.store = .starved → exec .withholdSuspension s =
       .next { ({ s with store := .suspended, rememberedStarved := decide (s.store = .starved) } : State).raise .storeWithheld with
         failureSignal := false }) ∧
     (s.store = .idle ∨ s.store = .suspended → exec .withholdSuspension s = .next { s with failureSignal := false })) ∧
  ∀ s t : State, s.failureSignal = true → exec .withholdSuspension s = .next t →
    (s.ref.state = .failed → ∀ m, exec (.timeMark (.valid m)) s = exec (.timeMark (.valid m)) t) ∧
    (∀ lo, s.eLo = some lo → (lo + 1) * (s.plan.epochLength * 1000000) + s.plan.hold * 1000000 ≤ s.ref.ntNow →
      exec .closeTimeReached s = exec .closeTimeReached t) ∧
    (∀ (i : Instr) (code length : Nat) (p : Progress) (e : Entry) (rest : List Entry), directiveCode i = some (code, length) →
      Current s p e rest code length → s.mustWait e = false → exec i s = exec i t) ∧
    exec .arbiterTake s = .next s ∧
    (s.inHand ≠ none → ∃ u, exec .handOff s = .next u ∧ u.inHand = none ∧ u.failureSignal = true)

/-! ## Acceptance -/

/-- R2: over a map that ascends strictly by code and holds at most 192 entries, the binary search finds a code exactly when it is in
the map, and yields its slot. -/
def Obligations.LookupFindsMappedStation : Prop :=
  ∀ (m : List MapEntry) (code slot : Nat), m.Pairwise (fun x y => x.code < y.code) → m.length ≤ 192 →
    (lookupStation m code = some slot ↔ ∃ x ∈ m, x.code = code ∧ x.slot = slot)

/-- R112, R113, R114, R115, R180: the layout of a station packet; the take alternates between the FIFOs, and a packet that ends at
stage 1, 2, 3 or 4 raises the one counter of that stage. The take waits for a directive that waits (log 9) and for a Withhold
suspension still to take effect (log 12). -/
def Obligations.TakeAndAcceptanceChecks : Prop :=
  (∀ bs : List Byte,
    let pk := readStationPacket bs
    pk.length = fieldAt bs 1 2 ∧ pk.code = fieldAt bs 3 2 ∧ pk.channel = fieldAt bs 5 1 ∧
    pk.restart = (fieldAt bs 6 1).testBit 0 ∧ pk.unlocked = (fieldAt bs 6 1).testBit 1 ∧
    pk.sequence.toNat = fieldAt bs 7 2 ∧ pk.time = fieldAt bs 9 6 ∧ pk.count = fieldAt bs 15 1 ∧
    pk.payload = (bs.drop 16).take (bs.length - 18)) ∧
  ∀ (s : State) (p : Port) (bs : List Byte), MapInv s → TakesPacket s p bs →
    let pk := readStationPacket bs
    let s1 : State := { s.setTrunk p { s.trunk p with fifo := (s.trunk p).fifo.tail } with nextPort := otherPort p }
    ((∀ x ∈ s.map, x.code ≠ pk.code) →
      exec .arbiterTake s = .next (s1.setTrunk p { s1.trunk p with unknownStation := bump (s1.trunk p).unknownStation })) ∧
    ∀ x ∈ s.map, x.code = pk.code → ∀ st, s.station x.slot = some st →
      (st.mask.has p = false →
        exec .arbiterTake s =
          .next (s1.putStation x.slot { st with counters := { st.counters with byRoute := bump st.counters.byRoute } })) ∧
      (st.mask.has p = true → st.state = .quarantined →
        exec .arbiterTake s =
          .next (s1.putStation x.slot
            { st with counters := { st.counters with byQuarantine := bump st.counters.byQuarantine } })) ∧
      (st.mask.has p = true → st.state ≠ .quarantined → (∀ c, ¬ FormatOk st pk c) →
        exec .arbiterTake s =
          .next (s1.putStation x.slot { st with counters := { st.counters with byFormat := bump st.counters.byFormat } }))

/-- R7, R21, R36, R58, R113, R116, R125: a packet that reaches stage 5 is a duplicate or stale and counted on its channel, or is
accepted: the window is kept as the filter leaves it, the station is Tracking with its timer at 0, and the Acceptance Path holds the
Correction Unit's results under the selected record. The take waits for a directive that waits (log 9) and for a Withhold suspension
still to take effect (log 12). -/
def Obligations.SequenceFilterOutcome : Prop :=
  ∀ (s : State) (p : Port) (bs : List Byte) (x : MapEntry) (st : Station) (c : Fin 4), MapInv s → TakesPacket s p bs →
    x ∈ s.map → x.code = (readStationPacket bs).code → s.station x.slot = some st → st.mask.has p = true →
    st.state ≠ .quarantined → FormatOk st (readStationPacket bs) c →
    let pk := readStationPacket bs
    let s1 : State := { s.setTrunk p { s.trunk p with fifo := (s.trunk p).fifo.tail } with nextPort := otherPort p }
    let ch := st.channels.get c
    ∀ w, (judge pk.restart ch.window pk.sequence = (.duplicate, w) →
        exec .arbiterTake s =
          .next (s1.putStation x.slot
            { st with channels := st.channels.set c { ch with window := some w, duplicates := bump ch.duplicates } })) ∧
      (judge pk.restart ch.window pk.sequence = (.stale, w) →
        exec .arbiterTake s =
          .next (s1.putStation x.slot
            { st with channels := st.channels.set c { ch with window := some w, stale := bump ch.stale } })) ∧
      (judge pk.restart ch.window pk.sequence = (.accepted, w) →
        let r := correctPacket (selectRecord st pk.time).1 (selectRecord st pk.time).2 ch pk
        exec .arbiterTake s =
          .next { s1.putStation x.slot
              { st with
                state := .tracking
                silence := some 0
                channels := st.channels.set c { ch with window := some w }
                counters := { st.counters with accepted := bump st.counters.accepted } } with
            inHand := some
              { port := p, slot := x.slot, channel := c, globalSlot := r.globalSlot, residual := r.residual,
                quality := r.quality, samples := r.samples } })

/-- R120, R122, R123: the six rows of the filter, the restart flag, and resynchronisation at the eighth stale packet. -/
def Obligations.SequenceFilterRows : Prop :=
  ∀ (q : BitVec 16) (w : SeqWindow),
    let first : SeqWindow := { high := q, marks := BitVec.twoPow 32 31, staleRun := 0 }
    let d := (q.toNat + 65536 - w.high.toNat) % 65536
    let a := 65536 - d
    (∀ restart, judge restart none q = (.accepted, first)) ∧
    judge true (some w) q = (.accepted, first) ∧
    judge false (some w) q =
      if d = 0 then (.duplicate, w)
      else if d ≤ 32767 then (.accepted, { high := q, marks := (w.marks >>> d) ||| BitVec.twoPow 32 31, staleRun := 0 })
      else if a ≤ 31 then
        if w.marks.getLsbD (31 - a) = true then (.duplicate, w)
        else (.accepted, { w with marks := w.marks ||| BitVec.twoPow 32 (31 - a), staleRun := 0 })
      else if w.staleRun + 1 < 8 then (.stale, { w with staleRun := w.staleRun + 1 })
      else (.accepted, first)

/-- R121: after a packet accepted as newer by d, the mark of number q - i is set when i is 0, or when that number lay in the range
covered before and its mark was set there; a packet accepted as older sets its own mark and moves nothing. -/
def Obligations.ReceivedMapMovesForward : Prop :=
  ∀ (w : SeqWindow) (q : BitVec 16),
    let d := (q.toNat + 65536 - w.high.toNat) % 65536
    (1 ≤ d → d ≤ 32767 → (judge false (some w) q).1 = .accepted ∧ (judge false (some w) q).2.high = q ∧
      ∀ i, i < 32 →
        ((judge false (some w) q).2.marks.getLsbD (31 - i) = true ↔ i = 0 ∨ d ≤ i ∧ w.marks.getLsbD (31 - (i - d)) = true)) ∧
    (65505 ≤ d → w.marks.getLsbD (31 - (65536 - d)) = false →
      (judge false (some w) q).1 = .accepted ∧ (judge false (some w) q).2.high = w.high ∧
      ∀ i, i < 32 → ((judge false (some w) q).2.marks.getLsbD (31 - i) = true ↔
        i = 65536 - d ∨ w.marks.getLsbD (31 - i) = true))

/-! ## Timing and sample arithmetic -/

/-- R60, R61, R63: the elapsed time is a signed difference that is not reduced; beyond the span it is clamped, with
EXTRAPOLATED; the sum of stage 4 is clamped at 0, with CLAMPED, and keeps within its bounds for a record in range. -/
def Obligations.StationTimeToNetworkTime : Prop :=
  (∀ (c : Correction) (t : Nat), t < 2 ^ 48 → c.refTime < 2 ^ 48 →
     let d : Int := (t : Int) - (c.refTime : Int)
     let span : Int := (c.span : Int) * 1000000
     elapsedUs c t = d ∧ -281474976710655 ≤ d ∧ d ≤ 281474976710655 ∧
     (d ≤ span → -span ≤ d → clampToSpan (spanUs c) (elapsedUs c t) = d ∧ isExtrapolated c t = false) ∧
     (span < d → clampToSpan (spanUs c) (elapsedUs c t) = span ∧ isExtrapolated c t = true) ∧
     (d < -span → clampToSpan (spanUs c) (elapsedUs c t) = -span ∧ isExtrapolated c t = true)) ∧
  (∀ (c : Correction) (t : Nat), c.InRange → t < 2 ^ 48 →
     let sum : Int := (t : Int) * 1000 + c.offset + driftTerm (clampToSpan (spanUs c) (elapsedUs c t)) c.drift
     (0 ≤ sum → (netTime c t : Int) = sum) ∧ (sum < 0 → netTime c t = 0) ∧
     (clampToSpan (spanUs c) (elapsedUs c t)).natAbs ≤ 86400000000 ∧ -521600000000 ≤ sum ∧ sum ≤ 281475498310655000 ∧
     ∀ (isPrevious : Bool) (ch : Channel) (pk : StationPacket), pk.time = t →
       (isExtrapolated c t = true → (correctPacket c isPrevious ch pk).quality.getLsbD 1 = true) ∧
       (sum < 0 → (correctPacket c isPrevious ch pk).quality.getLsbD 4 = true))

/-- R62: D has the sign of p and the magnitude (abs(p) + 500,000) div 10^6, is the nearest whole number with ties away from zero, and
keeps within its bound, as p does. -/
def Obligations.DriftTermRounding : Prop :=
  ∀ clamped drift : Int,
    let p := clamped * drift
    let x := driftTerm clamped drift
    x.natAbs = (p.natAbs + 500000) / 1000000 ∧ (0 ≤ p → 0 ≤ x) ∧ (p ≤ 0 → x ≤ 0) ∧ (p = 0 → x = 0) ∧
    2 * (x * 1000000 - p).natAbs ≤ 1000000 ∧
    (2 * (x * 1000000 - p).natAbs = 1000000 → p.natAbs < (x * 1000000).natAbs) ∧
    (clamped.natAbs ≤ 86400000000 → drift.natAbs ≤ 250000 →
      p.natAbs ≤ 21600000000000000 ∧ x.natAbs ≤ 21600000000)

/-- R59, R64, R65: a packet's global slot and residual are those of its network time on its channel's grid; the rate code's period, which is even; the nearest global slot with ties to the later one; and the residual's range,
reached at its low end exactly on a tie. -/
def Obligations.GlobalSlotAndResidual : Prop :=
  (∀ (record : Correction) (isPrevious : Bool) (ch : Channel) (pk : StationPacket),
    let r := correctPacket record isPrevious ch pk
    r.globalSlot = globalSlotOf (netTime record pk.time) (periodNs ch.rate) ∧
    r.residual = residualOf (netTime record pk.time) (periodNs ch.rate)) ∧
  ∀ (nt rate : Nat), 1 ≤ rate → rate ≤ 10 →
    let p := periodNs rate
    let g := globalSlotOf nt p
    ([1000000000, 100000000, 50000000, 25000000, 20000000, 10000000, 5000000, 4000000, 2000000, 1000000] : List Nat)[rate - 1]?
      = some p ∧
    p = 2 * (p / 2) ∧ g = (nt + p / 2) / p ∧ g * p ≤ nt + p / 2 ∧ nt + p / 2 < g * p + p ∧
    (nt ≤ 281475498310655000 → g ≤ 281475498311) ∧ residualOf nt p = (nt : Int) - (g : Int) * (p : Int) ∧
    -((p / 2 : Nat) : Int) ≤ residualOf nt p ∧ residualOf nt p ≤ ((p / 2 : Nat) : Int) - 1 ∧
    (residualOf nt p = -((p / 2 : Nat) : Int) ↔ nt % p = p / 2)

/-- R66, R68, R69: sample k is the word of payload bytes k w to k w + w - 1, with w 2, 3 or 4 by the channel's sample word, in the
channel's order, sign-extended; the absent mark, which only a 32-bit word can reach, is converted, with CLAMPED. -/
def Obligations.SampleConversion : Prop :=
  ∀ (record : Correction) (isPrevious : Bool) (ch : Channel) (pk : StationPacket) (k : Nat), k < pk.count →
    let w := match ch.word with
      | .bits16 => 2
      | .bits24 => 3
      | .bits32 => 4
    let word := (pk.payload.drop (k * w)).take w
    let n := match ch.order with
      | .mostFirst => beNat word
      | .leastFirst => beNat word.reverse
    let v : Int := match ch.word with
      | .bits16 => (BitVec.ofNat 16 n).toInt
      | .bits24 => (BitVec.ofNat 24 n).toInt
      | .bits32 => (BitVec.ofNat 32 n).toInt
    ch.word.width = w ∧ ∃ x, (correctPacket record isPrevious ch pk).samples[k]? = some x ∧
      x.toInt = (if v = -2147483648 then -2147483647 else v) ∧ (ch.word ≠ .bits32 → v ≠ -2147483648) ∧
      (v = -2147483648 → (correctPacket record isPrevious ch pk).quality.getLsbD 4 = true) ∧
      (correctPacket record isPrevious ch pk).samples.length = pk.count

/-- R36, R67: which record is selected, and the packet's flag set, flag by flag. -/
def Obligations.RecordSelectionAndFlags : Prop :=
  (∀ (st : Station) (t : Nat) (p : Previous) (sw : Nat), st.previous = some p → st.current.switch = some sw →
    selectRecord st t = if t < sw then (p.record, true) else (st.current, false)) ∧
  (∀ (st : Station) (t : Nat), st.previous = none → selectRecord st t = (st.current, false)) ∧
  ∀ (c : Correction) (isPrevious : Bool) (ch : Channel) (pk : StationPacket),
    let q := (correctPacket c isPrevious ch pk).quality
    let raw := rawSamples ch.word ch.order pk.count pk.payload
    (q.getLsbD 2 = true ↔ isPrevious = true) ∧ (q.getLsbD 0 = true ↔ c.isDefault = true) ∧
    (q.getLsbD 5 = true ↔ pk.unlocked = true) ∧
    (q.getLsbD 1 = true ↔ c.span * 1000000 < ((pk.time : Int) - (c.refTime : Int)).natAbs) ∧
    (q.getLsbD 4 = true ↔ netSum c pk.time < 0 ∨ ∃ v ∈ raw, v = 0x80000000) ∧ q.getLsbD 3 = false

/-! ## Hand-off and placement -/

/-- R20, R89, R117: the hand-off is taken in Ready and Starved and places the samples in payload order, and is refused in Idle and
Suspended, where the whole sample count is counted as store-not-ready. -/
def Obligations.HandOffRefusedOrPlaced : Prop :=
  (∀ (s : State) (p : InHand), s.inHand = some p →
    (s.store = .ready ∨ s.store = .starved →
      exec .handOff s = .next { placeSamples p (s.channelN p.slot p.channel) p.globalSlot p.samples s with inHand := none }) ∧
    (s.store = .idle ∨ s.store = .suspended → ∀ st, s.station p.slot = some st →
      exec .handOff s =
        .next { s.putStation p.slot
            { st with
              counters := { st.counters with storeNotReady := bump st.counters.storeNotReady p.samples.length } } with
          inHand := none })) ∧
  (∀ (p : InHand) (n gs : Nat) (s : State), placeSamples p n gs [] s = s) ∧
  ∀ (p : InHand) (n gs : Nat) (v : Sample) (vs : List Sample) (s : State),
    placeSamples p n gs (v :: vs) s = placeSamples p n (gs + 1) vs (s.placeSample p n gs v)

/-- R87, R90, R96: the rows under which a sample is dropped, in their order, with the counter each raises. The last row, placed, is
`PlacedSampleIsStored`. -/
def Obligations.DroppedSamplesAreCounted : Prop :=
  ∀ (s : State) (p : InHand) (n gs lo : Nat) (v : Sample) (st : Station), s.eLo = some lo → 1 ≤ s.plan.windowDepth →
    s.station p.slot = some st →
    let e := gs / n
    let k := gs % n
    let counted : State → (StationCounters → StationCounters) → State :=
      fun t f => t.putStation p.slot { st with counters := f st.counters }
    (e < lo → s.placeSample p n gs v = counted s (fun c => { c with late := bump c.late })) ∧
    (lo + s.plan.windowDepth - 1 < e → s.placeSample p n gs v = counted s (fun c => { c with future := bump c.future })) ∧
    (lo ≤ e → e ≤ lo + s.plan.windowDepth - 1 → (∀ i r, (i, r) ∈ s.records → ¬ (r.state = .opened ∧ r.number = e)) →
      s.placeSample p n gs v = counted s (fun c => { c with noRecord := bump c.noRecord })) ∧
    (lo ≤ e → e ≤ lo + s.plan.windowDepth - 1 → ∀ i r, openRecord s.records e = some (i, r) →
      (assocGet (r.segment p.slot p.channel).pages (k / 64) = none → s.store = .starved →
        s.placeSample p n gs v = counted s (fun c => { c with noPage := bump c.noPage })) ∧
      (assocGet (r.segment p.slot p.channel).pages (k / 64) = none → s.store = .ready → s.freePages = [] →
        s.placeSample p n gs v =
          counted (({ s with store := .starved } : State).raise .storeStarved) (fun c => { c with noPage := bump c.noPage })) ∧
      (assocGet (r.segment p.slot p.channel).pages (k / 64) ≠ none → (r.segment p.slot p.channel).filled.getLsbD k = true →
        assocGet s.records i = some r →
        s.placeSample p n gs v =
          counted { s with
              records := assocPut s.records i (r.putSegment p.slot p.channel
                { r.segment p.slot p.channel with
                  quality := (r.segment p.slot p.channel).quality ||| Quality.overlap }) }
            (fun c => { c with overlap := bump c.overlap })))

/-- R87, R91: what placing a sample does to its segment, the free-page list and the sample memory. -/
def Obligations.PlacedSampleIsStored : Prop :=
  ∀ (s : State) (p : InHand) (n gs lo i : Nat) (r : EpochRecord) (v : Sample), s.eLo = some lo → lo ≤ gs / n →
    gs / n ≤ lo + s.plan.windowDepth - 1 → openRecord s.records (gs / n) = some (i, r) → assocGet s.records i = some r →
    gs % n < 512 →
    let k := gs % n
    let g := r.segment p.slot p.channel
    let t := s.placeSample p n gs v
    g.filled.getLsbD k = false →
    ∀ page, (assocGet g.pages (k / 64) = some page ∨
        assocGet g.pages (k / 64) = none ∧ s.store = .ready ∧ s.freePages.head? = some page) →
      s.sampleAddress p n gs = some (wordAddress page (k % 64)) ∧
      readWord t.memory (wordAddress page (k % 64)) = v ∧
      (∃ r', assocGet t.records i = some r' ∧
        r'.segment p.slot p.channel =
          { g with
            pages := assocPut g.pages (k / 64) page
            fill := g.fill + 1
            filled := g.filled ||| BitVec.twoPow 512 k
            residual := some (g.residual.getD p.residual)
            quality := g.quality ||| p.quality } ∧
        (∀ slot c, (slot, c) ≠ (p.slot, p.channel) → r'.segment slot c = r.segment slot c)) ∧
      (∀ j, j ≠ i → assocGet t.records j = assocGet s.records j) ∧
      t.stations = s.stations ∧ t.store = s.store ∧ t.eLo = s.eLo ∧
      (assocGet g.pages (k / 64) = some page → t.freePages = s.freePages ∧ t.flags = s.flags) ∧
      (assocGet g.pages (k / 64) = none → t.freePages = s.freePages.tail ∧
        (hasFlag t.flags .pagesLow = true ↔ hasFlag s.flags .pagesLow = true ∨ s.freePages.length = 256))

/-- The frame of HAND_OFF over the sample memory (R91): only the words of placed samples change. -/
def Obligations.HandOffStoresOnlyPlacedSamples : Prop :=
  ∀ (s t : State) (a : Nat), exec .handOff s = .next t →
    (∀ p, s.inHand = some p → s.store = .ready ∨ s.store = .starved →
      ∀ w ∈ storeAddresses p (s.channelN p.slot p.channel) p.globalSlot p.samples s, ¬ (w ≤ a ∧ a < w + 4)) →
    readByte t.memory a = readByte s.memory a

/-! ## The reference -/

/-- R45, R46, R47, R52, R54: marks in Free, Failed, Acquiring and Holdover, with no Withhold suspension still to take effect (log 12). -/
def Obligations.MarksOutsideLocked : Prop :=
  (∀ s : State,
     (s.ref.state = .free ∨ s.ref.state = .failed →
       (∀ m : BitVec 32, s.failureSignal = false → exec (.timeMark (.valid m)) s =
         .next (s.setRef
           { s.ref with
             ntNow := m.toNat * 1000000000, state := .acquiring, lastSecond := some m.toNat, goodCount := 1, rejectCount := 0,
             markTimer := some 0, holdoverTimer := none }).closeEvaluation) ∧
       exec (.timeMark .bare) s = .next s) ∧
     (s.ref.state = .acquiring →
       (∀ (m : BitVec 32) (last : Nat), s.failureSignal = false → s.ref.lastSecond = some last → s.ref.goodCount ≤ 2 → s.ref.rejectCount = 0 →
         let err : Int := (m.toNat : Int) * 1000000000 - (s.ref.ntNow : Int)
         let good :=
           if (s.ref.goodCount = 1 ∨ s.ref.goodCount = 2) ∧ m.toNat = last + 1 ∧ err.natAbs ≤ 10 * s.ref.lockWindow * 1000 then
             s.ref.goodCount + 1
           else 1
         exec (.timeMark (.valid m)) s =
           .next (s.setRef
             { s.ref with
               ntNow := m.toNat * 1000000000, state := if good = 3 then .locked else .acquiring, lastSecond := some m.toNat,
               goodCount := good, markTimer := some 0 }).closeEvaluation) ∧
       exec (.timeMark .bare) s = .next s)) ∧
  (∀ s : State, s.ref.state = .holdover →
     (∀ m : BitVec 32, s.failureSignal = false →
       let nearest := (s.ref.ntNow + 500000000) / 1000000000
       let err : Int := (m.toNat : Int) * 1000000000 - (s.ref.ntNow : Int)
       (m.toNat = nearest ∧ err.natAbs ≤ 100 * s.ref.lockWindow * 1000 → exec (.timeMark (.valid m)) s =
         .next (s.setRef
           { s.ref with
             ntNow := m.toNat * 1000000000, state := .locked, lastSecond := some m.toNat, rejectCount := 0,
             markTimer := some 0, holdoverTimer := none }).closeEvaluation) ∧
       (¬ (m.toNat = nearest ∧ err.natAbs ≤ 100 * s.ref.lockWindow * 1000) → exec (.timeMark (.valid m)) s =
         .next (s.setRef
           { s.ref with
             ntNow := m.toNat * 1000000000, state := .acquiring, lastSecond := some m.toNat, goodCount := 1, rejectCount := 0,
             markTimer := some 0, holdoverTimer := none }).closeEvaluation)) ∧
     exec (.timeMark .bare) s = .next s)

/-- R49, R50: marks in Locked, the third rejection in a row, and the last second number that has no successor. There is no
Withhold suspension still to take effect in Locked (log 12). -/
def Obligations.MarkInLocked : Prop :=
  ∀ (s : State) (mark : Mark) (last : Nat), s.ref.state = .locked → s.ref.lastSecond = some last → last < 2 ^ 32 →
    let x := last + 1
    let err : Int := (x : Int) * 1000000000 - (s.ref.ntNow : Int)
    let agrees := last ≠ 4294967295 ∧ (mark = .bare ∨ ∃ m : BitVec 32, mark = .valid m ∧ m.toNat = x) ∧
      err.natAbs ≤ s.ref.lockWindow * 1000
    let kept := if last = 4294967295 then last else x
    (agrees → s.failureSignal = false → exec (.timeMark mark) s =
      .next (s.setRef
        { s.ref with ntNow := x * 1000000000, lastSecond := some x, rejectCount := 0, markTimer := some 0 }).closeEvaluation) ∧
    (¬ agrees → s.ref.rejectCount < 2 → exec (.timeMark mark) s =
      .next (s.setRef { s.ref with lastSecond := some kept, rejectCount := s.ref.rejectCount + 1, markTimer := some 0 })) ∧
    (¬ agrees → 2 ≤ s.ref.rejectCount → exec (.timeMark mark) s =
      .next (s.setRef
        { s.ref with
          state := .acquiring, lastSecond := some kept, goodCount := 0, rejectCount := 0, markTimer := some 0 }))

/-- R56, R172, R173, R174, R175, R181: the positions of the twelve flags; a change of reference state raises REF-CHANGE; a raised flag stays; a change from clear to set
of a flag in the notice mask places a notice or joins the pending one; CLEAR-FLAGS reports the flags before the clear and clears
those named; SET-NOTICE-MASK sets the mask; reserved positions are ignored. -/
def Obligations.FlagsAndNotices : Prop :=
  (∀ fs : FlagSet, ∀ x ∈
     ([.refChange, .refFailed, .storeStarved, .storeWithheld, .pagesLow, .windowShort, .trunkADown, .trunkBDown, .stationSilent,
       .emitDrop, .skippedEpochs, .mgmtDrop] : List EventFlag).zipIdx,
     x.1.bit = BitVec.twoPow 12 x.2 ∧ hasFlag fs x.1 = fs.getLsbD x.2) ∧
  ((∀ (s : State) (r : RefClock), s.setRef r = if r.state = s.ref.state then { s with ref := r }
     else ({ s with ref := r } : State).raise .refChange) ∧
   ∀ (s : State) (f : EventFlag),
     (hasFlag s.flags f = true → s.raise f = s) ∧
     (hasFlag s.flags f = false → hasFlag s.noticeMask f = false → s.raise f = { s with flags := s.flags ||| f.bit }) ∧
     (hasFlag s.flags f = false → hasFlag s.noticeMask f = true → s.noticeSlot = none →
       s.raise f = { s with flags := s.flags ||| f.bit, noticeSlot := some f.bit }) ∧
     (hasFlag s.flags f = false → hasFlag s.noticeMask f = true → ∀ cause, s.noticeSlot = some cause →
       s.raise f = { s with flags := s.flags ||| f.bit, noticeSlot := some (cause ||| f.bit) })) ∧
  (∀ (s : State) (p : Progress) (e : Entry) (rest : List Entry),
     (Takes s p e rest 0x11 2 → ∃ flags : FlagSet,
       (∀ k, k < 12 → (flags.getLsbD k = true ↔ s.flags.getLsbD k = true ∧ (fieldAt e.params 0 2).testBit k = false)) ∧
       exec .clearFlags s = .next (({ s with flags := flags } : State).finishEntry p e rest .done (beBytes 2 s.flags.toNat))) ∧
     (Takes s p e rest 0x12 2 → ∃ mask : FlagSet,
       (∀ k, k < 12 → (mask.getLsbD k = true ↔ (fieldAt e.params 0 2).testBit k = true)) ∧
       exec .setNoticeMask s = .next (({ s with noticeMask := mask } : State).finishEntry p e rest .done [])))

/-! ## The window -/

/-- R33, R57, R78, R81, R82, R83, R84: the close evaluation, in its three parts, with due epochs, with none, and in Idle: what it sets in
the records it closes and in those it opens, and what it leaves; and that CLOSE_TIME_REACHED runs it. -/
def Obligations.CloseEvaluationMovesWindow : Prop :=
  (∀ (s : State) (lo : Nat), StoreInv s → assocSorted s.stations = true → s.eLo = some lo →
    let t := s.closeEvaluation
    let due := s.openRecords.filter (fun p =>
      decide ((p.2.number + 1) * (s.plan.epochLength * 1000000) + s.plan.hold * 1000000 ≤ s.ref.ntNow))
    let first := max lo ((s.ref.ntNow - s.plan.hold * 1000000) / (s.plan.epochLength * 1000000))
    let reached := lo + due.length
    let pending := if due = [] then s.pendingSkip else 0
    t.eLo = some first ∧ reached ≤ first ∧ t.closedQueue = s.closedQueue ++ due.map (·.1) ∧
    t.pendingSkip = (if reached < first then min (pending + (first - reached)) 65535 else pending) ∧
    (hasFlag t.flags .skippedEpochs = true ↔ hasFlag s.flags .skippedEpochs = true ∨ reached < first) ∧
    (hasFlag t.flags .windowShort = true ↔ hasFlag s.flags .windowShort = true ∨ t.openCount < s.plan.windowDepth) ∧
    (∀ f, f ≠ .skippedEpochs → f ≠ .windowShort → hasFlag t.flags f = hasFlag s.flags f) ∧
    t.openRecords.map (·.2.number) = List.range' first t.openCount ∧ t.openCount ≤ s.plan.windowDepth ∧
    (t.openCount < s.plan.windowDepth → ∀ i, i < 16 → (assocGet t.records i).isSome = true) ∧
    (∀ (k i : Nat) (r : EpochRecord), due[k]? = some (i, r) → ∃ sections : Assoc Section,
      (∀ slot, assocGet sections slot = (s.station slot).map (fun st => { code := st.code, state := st.state })) ∧
      assocGet t.records i = some
        { r with
          state := .closed, refAtClose := some s.ref.state, storeAtClose := some s.store, sections := some sections,
          skipped := if k = 0 then s.pendingSkip else 0 }) ∧
    (∀ i r, assocGet s.records i = some r → (i, r) ∉ due → assocGet t.records i = some r) ∧
    (∀ i r, assocGet s.records i = none → assocGet t.records i = some r →
      r.state = .opened ∧ r.start = r.number * (s.plan.epochLength * 1000000) ∧ r.epochLength = s.plan.epochLength ∧
      r.skipped = 0 ∧ r.refAtClose = none ∧ r.storeAtClose = none ∧ r.sections = none ∧
      ∀ slot c, r.segment slot c =
        { n := s.channelN slot c, pages := [], fill := 0, filled := 0, residual := none, quality := 0 }) ∧
    (first = lo → t.stations = s.stations) ∧
    (lo < first → ∀ slot, t.station slot = (s.station slot).map (fun st =>
      match st.previous with
      | some p => if p.eSw < first then { st with previous := none } else st
      | none => st)) ∧
    t = { s with
      eLo := t.eLo, closedQueue := t.closedQueue, pendingSkip := t.pendingSkip, records := t.records, stations := t.stations
      flags := t.flags, noticeSlot := t.noticeSlot }) ∧
  (∀ s : State, s.store = .idle → s.closeEvaluation = s) ∧
  ∀ (s : State) (lo : Nat), s.failureSignal = false → s.eLo = some lo →
    (lo + 1) * (s.plan.epochLength * 1000000) + s.plan.hold * 1000000 ≤ s.ref.ntNow →
    exec .closeTimeReached s = .next s.closeEvaluation

/-- R33, R57, R78, R82: what an epoch's opening and an epoch's close set in its record. -/
def Obligations.EpochOpensAndCloses : Prop :=
  (∀ (s : State) (i e : Nat), assocSorted s.stations = true →
    ∃ r, assocGet (s.openEpoch i e).records i = some r ∧ r.state = .opened ∧ r.number = e ∧
      r.start = e * (s.plan.epochLength * 1000000) ∧ r.epochLength = s.plan.epochLength ∧ r.skipped = 0 ∧
      r.refAtClose = none ∧ r.storeAtClose = none ∧ r.sections = none ∧
      (∀ slot c, r.segment slot c =
        { n := s.channelN slot c, pages := [], fill := 0, filled := 0, residual := none, quality := 0 }) ∧
      s.openEpoch i e = { s with records := (s.openEpoch i e).records } ∧
      ∀ j, j ≠ i → assocGet (s.openEpoch i e).records j = assocGet s.records j) ∧
  ∀ (s : State) (i : Nat) (r : EpochRecord), assocGet s.records i = some r →
    ∃ sections,
      (∀ slot, assocGet sections slot = (s.station slot).map (fun st => { code := st.code, state := st.state })) ∧
      s.closeRecord i =
        { s with
          records := assocPut s.records i
            { r with
              state := .closed, refAtClose := some s.ref.state, storeAtClose := some s.store, sections := some sections,
              skipped := s.pendingSkip }
          pendingSkip := 0
          closedQueue := s.closedQueue ++ [i]
          eLo := some (r.number + 1)
          stations := (s.closeRecord i).stations } ∧
      ∀ slot, (s.closeRecord i).station slot = (s.station slot).map (fun st =>
        match st.previous with
        | some p => if p.eSw < r.number + 1 then { st with previous := none } else st
        | none => st)

/-! ## Emission -/

/-- R84, R88, R97, R137, R139, R140, R148: one stall limit into a hold, one epoch is given up (or none), and the timer starts again;
and what giving up a record frees. That an expiry which finds the last fragment in transmission waits for its completion in a count is
the model's (log 10). A record that RESTART ended while Sending is among those of a fate other than abandoned: that an expiry still
abandons and counts it, or is deferred at its last fragment, is the model's choice, and unsafe (log 11). That a store with a Withhold
suspension still to take effect stays Starved is deduced (log 12). -/
def Obligations.StallExpiryGivesUpOneEpoch : Prop :=
  (∀ (s : State) (n : Nat), s.stallTimer = some n → s.stallLimit * 1000000000 ≤ n →
    let counted : State → State := fun t =>
      { t.raise .emitDrop with
        stallTimer := some 0, globals := { s.globals with epochsDropped := bump s.globals.epochsDropped } }
    (∀ e, s.emitter = .building e →
      exec .stallTimerExpiry s = .next (counted { s.freeEmitted e.record with emitter := .idle })) ∧
    (∀ e fate, s.emitter = .sending e fate → fate ≠ .abandoned → e.next + 1 < e.plan.length →
      exec .stallTimerExpiry s = .next (counted { s with emitter := .sending e .abandoned })) ∧
    (∀ e fate, s.emitter = .sending e fate → fate ≠ .abandoned → e.plan.length ≤ e.next + 1 →
      exec .stallTimerExpiry s = .next { s with stallTimer := some 0, deferredExpiries := s.deferredExpiries + 1 }) ∧
    ((s.emitter = .idle ∨ ∃ e, s.emitter = .sending e .abandoned) →
      (∀ i rest, s.closedQueue = i :: rest →
        exec .stallTimerExpiry s = .next (counted (({ s with closedQueue := rest } : State).freeEmitted i))) ∧
      (s.closedQueue = [] → exec .stallTimerExpiry s = .next { s with stallTimer := some 0 }))) ∧
  ∀ (s : State) (i : Nat) (r : EpochRecord), assocGet s.records i = some r →
    let pages := s.freePages ++ r.pageList
    let s1 : State :=
      { s with
        records := assocErase s.records i, freePages := pages
        store := if s.store = .starved ∧ s.failureSignal = false ∧ 1024 ≤ pages.length then .ready else s.store }
    (∀ lo, s.eLo = some lo → s.store ≠ .idle → s1.openCount < s.plan.windowDepth → i < 16 →
      ∃ j, j ≤ i ∧ assocGet s1.records j = none ∧ (∀ k, k < j → (assocGet s1.records k).isSome = true) ∧
        s.freeEmitted i = s1.openEpoch j (lo + s1.openCount)) ∧
    (s.store = .idle ∨ s.eLo = none ∨ s.plan.windowDepth ≤ s1.openCount → s.freeEmitted i = s1)

/-- R130, R131, R135: the fragment plan keeps the sections' order, fills each fragment up to 16,384 bytes and starts the next only when
a section does not fit; and an epoch frame is its 32-byte header, its sections and a check field that passes. -/
def Obligations.FragmentPlanAndFrame : Prop :=
  (∀ r : EpochRecord, (∀ slot c, (r.segment slot c).n ≤ 512) →
    r.fragmentPlan.flatten = r.sectionSlots ∧
    (r.sectionSlots = [] → r.fragmentPlan = [[]]) ∧ (r.sectionSlots ≠ [] → ∀ f ∈ r.fragmentPlan, f ≠ []) ∧
    (∀ f ∈ r.fragmentPlan, (f.map r.sectionSize).sum ≤ 16384) ∧
    ∀ k f g slot, r.fragmentPlan[k]? = some f → r.fragmentPlan[k + 1]? = some g → g.head? = some slot →
      16384 < (f.map r.sectionSize).sum + r.sectionSize slot) ∧
  ∀ (unit : BitVec 4) (m : List Host.Cell) (r : EpochRecord) (e : Emission),
    (∀ slot ∈ e.slotsOf, slot ∈ r.sectionSlots) →
    let payload := fragmentPayload m r e.slotsOf
    let frame := epochFrame unit m r e
    payload.length = (e.slotsOf.map r.sectionSize).sum ∧ frame.length = payload.length + 34 ∧
    (frame.drop 32).take payload.length = payload ∧ checkPasses frame = true ∧
    fieldAt frame 0 1 = 0x52 ∧ (payload.length < 65536 → fieldAt frame 1 2 = payload.length) ∧ fieldAt frame 3 1 = unit.toNat ∧
    (r.number < 2 ^ 48 → fieldAt frame 4 6 = r.number) ∧ (r.start < 2 ^ 64 → fieldAt frame 10 8 = r.start) ∧
    (e.next < 256 → fieldAt frame 18 1 = e.next) ∧ fieldAt frame 19 1 = (if e.plan.length ≤ e.next + 1 then 1 else 0) ∧
    (∀ x, r.refAtClose = some x → fieldAt frame 20 1 = x.toCode) ∧
    (∀ x, r.storeAtClose = some x → fieldAt frame 21 1 = x.toCode) ∧ (r.skipped < 65536 → fieldAt frame 22 2 = r.skipped) ∧
    (e.slotsOf.length < 256 → fieldAt frame 24 1 = e.slotsOf.length) ∧
    (r.epochLength < 65536 → fieldAt frame 25 2 = r.epochLength) ∧ fieldAt frame 27 5 = 0

/-- R133, R134, R135: the words of a channel: the sample of a marked slot, the absent mark elsewhere; the section and channel headers,
the rate code of n and L among them, with their reserved bytes zero. -/
def Obligations.SectionContents : Prop :=
  (∀ (m : List Host.Cell) (g : Segment) (k : Nat),
    (∀ page, g.filled.getLsbD k = true → assocGet g.pages (k / 64) = some page →
      slotWord m g k = readWord m (wordAddress page (k % 64))) ∧
    (g.filled.getLsbD k = false → (slotWord m g k).toInt = -2147483648)) ∧
  (∀ (m : List Host.Cell) (l : Nat) (g : Segment) (c : Fin 4), g.n = 0 → channelBytes m l g c = []) ∧
  (∀ (m : List Host.Cell) (l : Nat) (g : Segment) (c : Fin 4), 1 ≤ g.n → g.n ≤ 512 → g.fill ≤ g.n →
    (∀ x, g.residual = some x → -500000000 ≤ x ∧ x ≤ 499999999) →
    let b := channelBytes m l g c
    b.length = 16 + (if g.fill = 0 then 0 else 4 * g.n) ∧
    fieldAt b 0 1 = c.val ∧ fieldAt b 1 1 = rateCodeOf g.n l ∧ fieldAt b 2 2 = g.n ∧ fieldAt b 4 2 = g.fill ∧
    fieldAt b 6 1 = g.quality.toNat + (if g.residual = none then 64 else 0) ∧ fieldAt b 7 1 = 0 ∧
    signedOf 32 (fieldAt b 8 4) = g.residual.getD 0 ∧ fieldAt b 12 4 = 0 ∧
    (g.fill ≠ 0 → ∀ k, k < g.n → fieldAt b (16 + 4 * k) 4 = (slotWord m g k).toNat)) ∧
  (∀ (l rate n : Nat), l = 250 ∨ l = 500 ∨ l = 1000 ∨ l = 2000 → 1 ≤ rate → rate ≤ 10 → samplesPerEpoch rate l = some n →
    rateCodeOf n l = rate) ∧
  ∀ (m : List Host.Cell) (r : EpochRecord) (slot : Nat) (sec : Section), assocGet (r.sections.getD []) slot = some sec →
    slot < 192 → sec.code < 65536 →
    let b := sectionBytes m r slot
    fieldAt b 0 2 = sec.code ∧ fieldAt b 2 1 = slot ∧ fieldAt b 3 1 = stationCode (some sec.state) ∧
    fieldAt b 4 1 = ([0, 1, 2, 3] : List (Fin 4)).countP (fun c => decide ((r.segment slot c).n ≠ 0)) ∧
    (b.drop 5).take 11 = List.replicate 11 0 ∧
    b.drop 16 = ([0, 1, 2, 3] : List (Fin 4)).flatMap (fun c => channelBytes m r.epochLength (r.segment slot c) c)

/-- R97, R136, R137, R139, R141, R143: the completion of a fragment, in each case the Emitter can be in, and the order in which the
fragment's pages join the free-page list. Deferred expiries are the model's count (log 10; of a record that RESTART
ended, its choice, log 11). That a store with a Withhold suspension still to take effect stays Starved is deduced (log 12). -/
def Obligations.FragmentCompletionFreesPages : Prop :=
  (∀ (s : State) (f : TxFrame) (e : Emission), s.transmitting = some f → f.source = .own →
    let s1 : State := { s with transmitting := none }
    (s.emitter = .sending e .goesOn → e.next + 1 < e.plan.length →
      exec .fragmentCompletion s =
        .next { (s1.freeFragmentPages e).endStarved with emitter := .building { e with next := e.next + 1 } }) ∧
    (s.emitter = .sending e .goesOn → e.plan.length ≤ e.next + 1 →
      exec .fragmentCompletion s =
        .next { dropHeads s.deferredExpiries
            { ((s1.freeFragmentPages e).endStarved).freeEmitted e.record with emitter := .idle } with deferredExpiries := 0 }) ∧
    (∀ fate, s.emitter = .sending e fate → fate ≠ .goesOn →
      exec .fragmentCompletion s =
        .next { dropHeads s.deferredExpiries { (s1.freeFragmentPages e).freeEmitted e.record with emitter := .idle } with
          deferredExpiries := 0 })) ∧
  (∀ s : State, dropHeads 0 s = s) ∧ (∀ (k : Nat) (s : State), dropHeads (k + 1) s = dropHeads k s.dropHead) ∧
  (∀ s : State, s.endStarved =
    if s.store = .starved ∧ s.failureSignal = false ∧ 1024 ≤ s.freePages.length then { s with store := .ready } else s) ∧
  ∀ (s : State) (e : Emission) (r : EpochRecord), assocGet s.records e.record = some r → e.slotsOf.Nodup →
    (s.freeFragmentPages e).freePages =
      s.freePages ++ e.slotsOf.flatMap (fun slot => ([0, 1, 2, 3] : List (Fin 4)).flatMap (fun c => (r.segment slot c).pageList)) ∧
    ∃ r', assocGet (s.freeFragmentPages e).records e.record = some r' ∧
      ∀ slot c, r'.segment slot c =
        if slot ∈ e.slotsOf then { r.segment slot c with pages := [] } else r.segment slot c

/-! ## Centre link and chain -/

/-- R152, R153, R154, R160: the intake checks, the routing by destination and hop count, and the two offers. -/
def Obligations.DirectivePacketRouting : Prop :=
  ∀ (bs : List Byte) (s : State),
    let sound := 12 ≤ bs.length ∧ bs.length ≤ 512 ∧ fieldAt bs 0 1 = 0x53 ∧ fieldAt bs 1 2 = bs.length - 12 ∧
      onesAdd (checkSum 0 (bs.take (bs.length - 2))) (fieldAt bs (bs.length - 2) 2) = 0xFFFF
    let dest := fieldAt bs 3 1 % 32
    let hop := fieldAt bs 4 1 % 16
    let unit := s.unitAddress.toNat
    let queue := s.chain.forwardQueue ++ [bs]
    let s1 : State :=
      { s with
        chain :=
          if dest ≠ unit ∧ 1 ≤ hop ∧ s.chain.link = .up ∧ s.chain.forwardQueue.length < 2 then
            { s.chain with
              forwardQueue := queue
              outgoing := if s.chain.outgoing = none then queue.head?.map forwardImage else s.chain.outgoing }
          else if dest ≠ unit ∧ (1 ≤ hop ∨ dest ≠ 31) then { s.chain with forwardDrops := bump s.chain.forwardDrops }
          else s.chain }
    (¬ sound → exec (.directivePacketArrival bs) s =
      .next { s with globals := { s.globals with receiveErrors := bump s.globals.receiveErrors } }) ∧
    (sound → dest ≠ unit → dest ≠ 31 → exec (.directivePacketArrival bs) s = .next s1) ∧
    (sound → dest = unit ∨ dest = 31 → s.inbound.length < 2 → exec (.directivePacketArrival bs) s =
      .next { s1 with
        inbound := s.inbound ++ [bs]
        agent := if s.agent = .idle ∧ 4 ≤ s.answerQueue.length then .waiting else s.agent
        globals := { s.globals with packetsTaken := bump s.globals.packetsTaken } }) ∧
    (sound → dest = unit ∨ dest = 31 → 2 ≤ s.inbound.length → exec (.directivePacketArrival bs) s =
      .next { s1.raise .mgmtDrop with globals := { s.globals with managementDrops := bump s.globals.managementDrops } })

/-- R73, R154, R182: the completion of a forwarded packet, and the packet as it is sent. -/
def Obligations.ForwardedPacket : Prop :=
  (∀ (s : State) (x : List Byte), s.chain.outgoing = some x →
    exec .forwardComplete s =
      .next { s with
        chain :=
          { s.chain with
            forwardQueue := s.chain.forwardQueue.tail, outgoing := s.chain.forwardQueue.tail.head?.map forwardImage } }) ∧
  ∀ bs : List Byte, 12 ≤ bs.length →
    (forwardImage bs).length = bs.length ∧ checkPasses (forwardImage bs) = true ∧
    fieldAt (forwardImage bs) 4 1 = fieldAt bs 4 1 % 16 - 1 ∧
    ∀ i, i + 2 < bs.length → i ≠ 4 → (forwardImage bs)[i]? = bs[i]?

/-- R147, R149, R157, R158, R176, R177: HOLD and RELEASE, and the completions of answers, notices and pass-through frames. -/
def Obligations.HoldReleaseAndCompletions : Prop :=
  (∀ s : State,
     (s.hold = .notHeld → exec .hold s = .next { s with hold := .held, stallTimer := some 0 } ∧ exec .release s = .next s) ∧
     (s.hold = .held → exec .hold s = .next s ∧ exec .release s = .next { s with hold := .notHeld, stallTimer := none })) ∧
  (∀ (s : State) (f : TxFrame), s.transmitting = some f →
     (f.source = .answer →
       exec .answerCompletion s = .next { s with transmitting := none, answerQueue := s.answerQueue.tail }) ∧
     (f.source = .notice →
       exec .noticeCompletion s =
         .next { s with
           transmitting := none, globals := { s.globals with noticesSent := bump s.globals.noticesSent } }) ∧
     (f.source = .passThrough →
       exec .passThroughCompletion s =
         .next { s with
           transmitting := none
           chain :=
             { s.chain with
               buffer := s.chain.buffer.tail
               outwardHold := if s.chain.buffer.tail.length = 4 then false else s.chain.outwardHold } }))

/-- R155, R156, R157, R158, R159: an arrival on the chain port; the chain link goes Down by loss of signal or by a timer that
has run one link-loss time, and an indication while Down has no effect. -/
def Obligations.ChainPortArrivalsAndLoss : Prop :=
  (∀ (bs : List Byte) (s : State),
     let c := s.chain
     let kind := fieldAt bs 0 1
     let header := if kind = 0x52 then 32 else if kind = 0x54 then 10 else 4
     let least := if kind = 0x52 then 34 else if kind = 0x54 then 12 else 14
     let most := if kind = 0x52 then 16418 else if kind = 0x54 then 4096 else 14
     exec (.frameArrival bs) s = .next { s with
       chain :=
         if kind ≠ 0x52 ∧ kind ≠ 0x54 ∧ kind ≠ 0x55 then { c with typeErrors := bump c.typeErrors }
         else if bs.length < least ∨ most < bs.length ∨ fieldAt bs 1 2 ≠ bs.length - (header + 2) then
           { c with lengthErrors := bump c.lengthErrors }
         else if onesAdd (checkSum 0 (bs.take (bs.length - 2))) (fieldAt bs (bs.length - 2) 2) ≠ 0xFFFF then
           { c with checkErrors := bump c.checkErrors }
         else if c.buffer.length < 8 then
           { c with
             goodFrames := bump c.goodFrames, link := .up, timer := some 0, buffer := c.buffer ++ [bs]
             outwardHold := if c.buffer.length + 1 = 8 then true else c.outwardHold }
         else
           { c with goodFrames := bump c.goodFrames, link := .up, timer := some 0, overflows := bump c.overflows } }) ∧
  (∀ s : State,
     (s.chain.link = .up → exec .chainLossOfSignal s = .next { s with chain := { s.chain with link := .down, timer := none } }) ∧
     (s.chain.link = .down → exec .chainLossOfSignal s = .next s) ∧
     (s.chain.link = .up → ∀ e, s.chain.timer = some e → s.linkLossTime * 1000000 ≤ e →
       exec .chainLinkLossTimerExpiry s = .next { s with chain := { s.chain with link := .down, timer := none } }))

/-- R129, R138, R149, R150, R176: the choice at a frame boundary, and what each grant does. -/
def Obligations.GrantFollowsPriority : Prop :=
  ∀ s : State,
    (s.hold = .held ∨ s.transmitting ≠ none → exec .grant s = .next s) ∧
    (s.hold = .notHeld → s.transmitting = none →
      let own := s.emitter = .idle ∧ s.closedQueue ≠ [] ∨ ∃ e, s.emitter = .building e
      (∀ a q, s.answerQueue = a :: q → exec .grant s = .next { s with transmitting := some { source := .answer, bytes := a } }) ∧
      (s.answerQueue = [] → ∀ cause, s.noticeSlot = some cause → exec .grant s =
        .next { s with
          noticeSlot := none
          transmitting := some
            { source := .notice
              bytes := withCheck ([0x55, 0, 8] ++ beBytes 1 s.unitAddress.toNat ++ beBytes 2 cause.toNat
                ++ beBytes 2 s.flags.toNat ++ beBytes 1 s.ref.state.toCode ++ beBytes 1 s.store.toCode ++ [0, 0]) } }) ∧
      (s.answerQueue = [] → s.noticeSlot = none → ∀ f q, s.chain.buffer = f :: q → ¬ own ∨ s.nextData = .passThrough →
        exec .grant s = .next { s with nextData := .own, transmitting := some { source := .passThrough, bytes := f } }) ∧
      (s.answerQueue = [] → s.noticeSlot = none → s.chain.buffer = [] ∨ s.nextData = .own →
        (∀ i rest r, s.emitter = .idle → s.closedQueue = i :: rest → assocGet s.records i = some r →
          let e : Emission := { record := i, plan := r.fragmentPlan, next := 0 }
          exec .grant s =
            .next { s with
              records := assocPut s.records i { r with state := .emitting }
              closedQueue := rest
              emitter := .sending e .goesOn
              nextData := .passThrough
              transmitting := some { source := .own, bytes := epochFrame s.unitAddress s.memory r e } }) ∧
        (∀ e r, s.emitter = .building e → assocGet s.records e.record = some r →
          exec .grant s =
            .next { s with
              emitter := .sending e .goesOn
              nextData := .passThrough
              transmitting := some { source := .own, bytes := epochFrame s.unitAddress s.memory r e } })) ∧
      (s.answerQueue = [] → s.noticeSlot = none → s.chain.buffer = [] → ¬ own → exec .grant s = .next s))

/-- R71, R72, R73: the sum of big-endian 16-bit words, an odd last byte padded with a zero byte, each carry added back; the check field
is its complement; the check of an arrival; a run of bytes with its check field passes the check, and damage to any one byte of a
passing arrival is found. -/
def Obligations.CheckFieldsDetectDamage : Prop :=
  ((∀ total : Nat, checkSum total [] = total) ∧ (∀ (total : Nat) (x : Byte), checkSum total [x] = onesAdd total (x.toNat * 256)) ∧
   (∀ (total : Nat) (x y : Byte) (rest : List Byte),
     checkSum total (x :: y :: rest) = checkSum (onesAdd total (x.toNat * 256 + y.toNat)) rest) ∧
   (∀ total word : Nat, total < 65536 → word < 65536 →
     onesAdd total word = (total + word) % 65536 + (total + word) / 65536 ∧ onesAdd total word < 65536) ∧
   (∀ body : List Byte, fieldAt (withCheck body) body.length 2 = 65535 - checkSum 0 body) ∧
   ∀ arrival : List Byte, 2 ≤ arrival.length →
     (checkPasses arrival = true ↔
       onesAdd (checkSum 0 (arrival.take (arrival.length - 2))) (fieldAt arrival (arrival.length - 2) 2) = 65535)) ∧
  (∀ body : List Byte, checkPasses (withCheck body) = true ∧ (withCheck body).length = body.length + 2 ∧
    (withCheck body).take body.length = body) ∧
  ∀ (arrival : List Byte) (i : Nat) (b old : Byte), checkPasses arrival = true → arrival[i]? = some old → b ≠ old →
    checkPasses (arrival.set i b) = false

/-! ## The Management Agent -/

/-- R161, R162, R177: the beginning of a packet, and the structure that is sound: entries that exactly fill the payload, as many as the
directive count, which is at most 16. -/
def Obligations.PacketBeginsWhenAnswerHasRoom : Prop :=
  (∀ (s : State) (packet : List Byte) (more : List (List Byte)), s.agent.progress = none → s.inbound = packet :: more →
    (4 ≤ s.answerQueue.length → exec .beginPacket s = .next { s with agent := .waiting }) ∧
    (s.answerQueue.length < 4 →
      (soundEntries packet = none → exec .beginPacket s =
        .next (({ s with
          globals := { s.globals with malformedPackets := bump s.globals.malformedPackets } } : State).placeAnswer
            (answerPacket s.unitAddress (fieldAt packet 5 2) 1 []))) ∧
      (soundEntries packet = some [] → exec .beginPacket s =
        .next (s.placeAnswer (answerPacket s.unitAddress (fieldAt packet 5 2) 0 []))) ∧
      (∀ e es, soundEntries packet = some (e :: es) → exec .beginPacket s =
        .next { s with
          agent := .executing
            { todo := e :: es, formed := [], tag := fieldAt packet 5 2,
              stopOnRefusal := (fieldAt packet 8 1).testBit 0 } }))) ∧
  ∀ (packet : List Byte) (es : List Entry),
    soundEntries packet = some es ↔
      payloadOf 10 packet = es.flatMap (fun e => e.code :: BitVec.ofNat 8 e.params.length :: e.params) ∧
      (∀ e ∈ es, e.params.length < 256) ∧ es.length = fieldAt packet 7 1 ∧ fieldAt packet 7 1 ≤ 16

/-- R163, R164, R165, R166, R181: the outcome codes; what forming an entry does; the layout of an answer; UNKNOWN for a code outside the table; and MALFORMED
for a wrong parameter length. That the answer is placed within the step of the last directive is the model's (logs 8 and 14). -/
def Obligations.EntriesAndAnswers : Prop :=
  ([.done, .noEffect, .refusedState, .refusedRange, .refusedBusy, .refusedTarget, .unknown, .malformed, .notRun] :
    List DirOutcome).map DirOutcome.toCode = List.range 9 ∧
  (∀ (s : State) (p : Progress) (e : Entry) (rest : List Entry) (o : DirOutcome) (data : List Byte),
    let formed := p.formed ++ [[e.code] ++ beBytes 1 o.toCode ++ beBytes 2 data.length ++ data]
    let refusal := o ≠ .done ∧ o ≠ .noEffect ∧ o ≠ .notRun
    (p.stopOnRefusal = true → refusal → s.finishEntry p e rest o data =
      s.placeAnswer (answerPacket s.unitAddress p.tag 0 (formed ++ rest.map (fun x => [x.code, 8, 0, 0])))) ∧
    (¬ (p.stopOnRefusal = true ∧ refusal) → rest = [] →
      s.finishEntry p e rest o data = s.placeAnswer (answerPacket s.unitAddress p.tag 0 formed)) ∧
    (¬ (p.stopOnRefusal = true ∧ refusal) → rest ≠ [] →
      s.finishEntry p e rest o data = { s with agent := .executing { p with todo := rest, formed := formed } })) ∧
  (∀ (s : State) (answer : List Byte), s.placeAnswer answer =
    { s with
      answerQueue := s.answerQueue ++ [answer]
      inbound := s.inbound.tail
      agent := if s.inbound.tail ≠ [] ∧ 4 ≤ s.answerQueue.length + 1 then .waiting else .idle }) ∧
  (∀ (unit : BitVec 4) (tag status : Nat) (entries : List (List Byte)),
    answerPacket unit tag status entries =
      withCheck ([0x54] ++ beBytes 2 entries.flatten.length ++ beBytes 1 unit.toNat ++ beBytes 2 tag ++ beBytes 1 status ++ [0]
        ++ beBytes 1 entries.length ++ [0] ++ entries.flatten)) ∧
  (∀ (s : State) (p : Progress) (e : Entry) (rest : List Entry), s.agent.progress = some p → p.todo = e :: rest →
    e.code.toNat = 0 ∨ 0x17 < e.code.toNat → exec .unknown s = .next (s.finishEntry p e rest .unknown [])) ∧
  ∀ (s : State) (p : Progress) (e : Entry) (rest : List Entry) (i : Instr) (code length : Nat),
    directiveCode i = some (code, length) → s.agent.progress = some p → p.todo = e :: rest → e.code.toNat = code →
    e.params.length ≠ length → exec i s = .next (s.finishEntry p e rest .malformed [])

/-- R13, R38, R118, R163: a directive that names the station of the packet in hand, and a RESTART with any packet in hand, wait with
the agent Held and change nothing else; the agent stays Held through the hand-off that ends the handling; and then the directive
can be taken, while the arbiter takes no further packet before it. Which directives wait, and that the take is held back as a step,
are deduced (log 9). -/
def Obligations.HeldDirectivesWait : Prop :=
  (∀ (s : State) (p : Progress) (e : Entry) (rest : List Entry) (h : InHand), s.inHand = some h →
    (∀ (i : Instr) (code length : Nat),
      i ∈ [.unmapStation, .setChannel, .stageCorrection, .commitCorrection, .discardStaged, .quarantine, .unquarantine] →
      directiveCode i = some (code, length) → Current s p e rest code length → fieldAt e.params 0 1 = h.slot →
      exec i s = .next { s with agent := .held p } ∧ i ∉ ({ s with agent := .held p } : State).ownSteps) ∧
    (Current s p e rest 0x17 0 →
      exec .restart s = .next { s with agent := .held p } ∧ .restart ∉ ({ s with agent := .held p } : State).ownSteps)) ∧
  ∀ (s : State) (p : Progress), s.agent = .held p →
    (s.inHand ≠ none → ∃ t, exec .handOff s = .next t ∧ t.inHand = none ∧ t.agent = .held p ∧ .handOff ∈ s.ownSteps) ∧
    (s.inHand = none → exec .arbiterTake s = .next s ∧ .arbiterTake ∉ s.ownSteps ∧
      ∀ e rest, p.todo = e :: rest → commandOf e.code.toNat ∈ s.ownSteps)

/-! ## Directives that read -/

/-- R167, R168, R169, R170, R171: the reading directives, their refusals, and READ-COUNTERS's clear in the same event. -/
def Obligations.ReadingDirectives : Prop :=
  ∀ (s : State) (p : Progress) (e : Entry) (rest : List Entry),
    (Takes s p e rest 0x01 0 → exec .identify s =
      .next (s.finishEntry p e rest .done
        ([0x1C, 0x96, 0x01] ++ beBytes 1 s.unitAddress.toNat ++ [0xC0, 0x04, 0x10, 0x40, 0x00]))) ∧
    (Takes s p e rest 0x0F 0 → exec .readStore s = .next (s.finishEntry p e rest .done (storeReport s))) ∧
    (Takes s p e rest 0x10 0 → exec .readFlags s =
      .next (s.finishEntry p e rest .done
        (beBytes 2 s.flags.toNat ++ beBytes 2 s.noticeMask.toNat
          ++ (match s.noticeSlot with
            | some cause => [1] ++ beBytes 2 cause.toNat
            | none => [0, 0, 0])
          ++ beBytes 1 s.ref.state.toCode ++ beBytes 1 s.store.toCode))) ∧
    (Takes s p e rest 0x0D 1 →
      let slot := fieldAt e.params 0 1
      (191 < slot → exec .readStation s = .next (s.finishEntry p e rest .refusedRange [])) ∧
      (slot ≤ 191 → s.station slot = none → exec .readStation s =
        .next (s.finishEntry p e rest .done (beBytes 1 slot ++ [0]))) ∧
      (slot ≤ 191 → ∀ st, s.station slot = some st → exec .readStation s =
        .next (s.finishEntry p e rest .done (beBytes 1 slot ++ stationReport st)))) ∧
    (Takes s p e rest 0x0E 3 →
      let scope := fieldAt e.params 0 1
      let slot := fieldAt e.params 1 1
      let clear := (fieldAt e.params 2 1).testBit 0 = true
      let four := fun cs : List Counter => beBytes 1 scope ++ cs.flatMap (beBytes 4)
      (4 < scope → exec .readCounters s = .next (s.finishEntry p e rest .refusedRange [])) ∧
      (∀ port, scope = (if port = Port.a then 0 else 1) → exec .readCounters s =
        .next ((if clear then s.setTrunk port
            { s.trunk port with goodPackets := 0, lengthErrors := 0, checkErrors := 0, overflows := 0, unknownStation := 0 }
          else s).finishEntry p e rest .done (four (s.trunk port).counterList ++ beBytes 1 (s.trunk port).link.toCode))) ∧
      (scope = 2 → exec .readCounters s =
        .next ((if clear then
            { s with
              chain :=
                { s.chain with
                  goodFrames := 0, typeErrors := 0, lengthErrors := 0, checkErrors := 0, overflows := 0, forwardDrops := 0 } }
          else s).finishEntry p e rest .done (four s.chain.counterList ++ beBytes 1 s.chain.link.toCode
            ++ beBytes 1 s.chain.buffer.length ++ [if s.chain.outwardHold then 1 else 0]))) ∧
      (scope = 3 → 191 < slot → exec .readCounters s = .next (s.finishEntry p e rest .refusedRange [])) ∧
      (scope = 3 → slot ≤ 191 → s.station slot = none →
        exec .readCounters s = .next (s.finishEntry p e rest .refusedTarget [])) ∧
      (scope = 3 → slot ≤ 191 → ∀ st, s.station slot = some st → ∃ st',
        st' = { st with counters := st'.counters, channels := st'.channels } ∧ (∀ c ∈ st'.counterList, c = 0) ∧
        (∀ c, st'.channels.get c = { st.channels.get c with duplicates := 0, stale := 0 }) ∧
        exec .readCounters s =
          .next ((if clear then s.putStation slot st' else s).finishEntry p e rest .done (four st.counterList))) ∧
      (scope = 4 → exec .readCounters s =
        .next ((if clear then
            { s with
              globals :=
                { packetsTaken := 0, managementDrops := 0, malformedPackets := 0, receiveErrors := 0, epochsDropped := 0,
                  noticesSent := 0 } }
          else s).finishEntry p e rest .done (four s.globals.counterList))))

/-- R20, R22, R111, R159, R168, R170, R177, R181, R183: the codes of states and enumerations, the sizes of the reports, every field of
READ-STORE's and READ-STATION's reports at its place, and every counter of READ-COUNTERS's reports, after the scope byte, in the order
of its rule's table. That a timer at its limit is reported as 1 is deduced (log 18). -/
def Obligations.ReportLayouts : Prop :=
  ([none, some .configured, some .tracking, some .silent, some .quarantined].map stationCode = List.range 5 ∧
   [RefState.free, .acquiring, .locked, .holdover, .failed].map RefState.toCode = List.range 5 ∧
   [StoreState.idle, .ready, .starved, .suspended].map StoreState.toCode = List.range 4 ∧
   [LinkState.down, .up].map LinkState.toCode = List.range 2 ∧ [FailureAction.goOn, .withhold].map FailureAction.toCode = List.range 2 ∧
   ∀ e fate, [Emitter.idle, .building e, .sending e fate].map Emitter.toCode = List.range 3) ∧
  (∀ s : State,
    let b := storeReport s
    b.length = 41 ∧ fieldAt b 0 1 = s.store.toCode ∧ fieldAt b 1 1 = (if s.rememberedStarved then 1 else 0) ∧
    (s.plan.epochLength < 65536 → fieldAt b 2 2 = s.plan.epochLength) ∧
    (s.plan.windowDepth < 256 → fieldAt b 4 1 = s.plan.windowDepth) ∧
    (s.plan.hold < 65536 → fieldAt b 5 2 = s.plan.hold) ∧ fieldAt b 7 1 = s.plan.failureAction.toCode ∧
    (s.eLo = none → fieldAt b 8 1 = 0 ∧ fieldAt b 9 6 = 0) ∧
    (∀ lo, s.eLo = some lo → fieldAt b 8 1 = 1 ∧ (lo < 2 ^ 48 → fieldAt b 9 6 = lo)) ∧
    (s.freePages.length < 65536 → fieldAt b 16 2 = s.freePages.length) ∧
    (s.records.length ≤ 16 →
      let number := fun x : RecordState => s.records.countP (fun r => decide (r.2.state = x))
      fieldAt b 15 1 = number .opened ∧ fieldAt b 18 1 = 16 - s.records.length ∧ fieldAt b 19 1 = number .opened ∧
      fieldAt b 20 1 = number .closed ∧ fieldAt b 21 1 = number .emitting ∧
      fieldAt b 18 1 + fieldAt b 19 1 + fieldAt b 20 1 + fieldAt b 21 1 = 16) ∧
    (s.closedQueue.length < 256 → fieldAt b 22 1 = s.closedQueue.length) ∧
    (s.closedQueue = [] → fieldAt b 23 1 = 0 ∧ fieldAt b 24 6 = 0) ∧
    (∀ i rest, s.closedQueue = i :: rest → fieldAt b 23 1 = 1 ∧
      ∀ r, assocGet s.records i = some r → r.number < 2 ^ 48 → fieldAt b 24 6 = r.number) ∧
    fieldAt b 30 1 = s.emitter.toCode ∧
    (s.emitter = .idle → fieldAt b 31 1 = 0 ∧ fieldAt b 32 6 = 0 ∧ fieldAt b 38 1 = 0) ∧
    (∀ e, (s.emitter = .building e ∨ ∃ fate, s.emitter = .sending e fate) →
      fieldAt b 31 1 = 1 ∧ (e.next < 256 → fieldAt b 38 1 = e.next) ∧
      ∀ r, assocGet s.records e.record = some r → r.number < 2 ^ 48 → fieldAt b 32 6 = r.number) ∧
    (s.pendingSkip < 65536 → fieldAt b 39 2 = s.pendingSkip)) ∧
  (∀ st : Station,
    let b := stationReport st
    let layout := fun (off : Nat) (record : Option Correction) =>
      (record = none → (b.drop off).take 33 = List.replicate 33 0) ∧
      ∀ c, record = some c → c.InRange →
        fieldAt b off 1 = 1 ∧ signedOf 64 (fieldAt b (off + 1) 8) = c.offset ∧ signedOf 32 (fieldAt b (off + 9) 4) = c.drift ∧
        fieldAt b (off + 13) 6 = c.refTime ∧ fieldAt b (off + 19) 4 = c.span ∧ fieldAt b (off + 23) 2 = c.version ∧
        fieldAt b (off + 25) 1 = (if c.isDefault then 1 else 0) ∧
        fieldAt b (off + 26) 1 = (if c.switch.isSome then 1 else 0) ∧ fieldAt b (off + 27) 6 = c.switch.getD 0
    b.length = 160 ∧ fieldAt b 0 1 = stationCode (some st.state) ∧ (st.code < 65536 → fieldAt b 1 2 = st.code) ∧
    fieldAt b 3 1 = (if st.mask.a then 1 else 0) + (if st.mask.b then 2 else 0) ∧
    (st.silenceLimit < 65536 → fieldAt b 4 2 = st.silenceLimit) ∧
    (st.silence = none → fieldAt b 6 4 = 0) ∧
    (∀ n, st.silence = some n → st.silenceLimit ≤ 600 →
      fieldAt b 6 4 = (if n < st.silenceLimit * 1000000000 then (st.silenceLimit * 1000000000 - n + 999999) / 1000000 else 1)) ∧
    (∀ c : Fin 4,
      let ch := st.channels.get c
      let off := 10 + 11 * c.val
      (ch.rate < 256 → fieldAt b off 1 = ch.rate) ∧
      fieldAt b (off + 1) 1 = (match ch.word with
        | .bits16 => 0
        | .bits24 => 1
        | .bits32 => 2) ∧
      fieldAt b (off + 2) 1 = (match ch.order with
        | .mostFirst => 0
        | .leastFirst => 1) ∧
      (ch.window = none → (b.drop (off + 3)).take 8 = List.replicate 8 0) ∧
      ∀ w, ch.window = some w → fieldAt b (off + 3) 1 = 1 ∧ fieldAt b (off + 4) 2 = w.high.toNat ∧
        fieldAt b (off + 6) 4 = w.marks.toNat ∧ (w.staleRun < 256 → fieldAt b (off + 10) 1 = w.staleRun)) ∧
    layout 54 (some st.current) ∧ layout 87 (st.previous.map (·.record)) ∧ layout 120 st.staged ∧
    (st.previous = none → fieldAt b 153 1 = 0 ∧ fieldAt b 154 6 = 0) ∧
    (∀ q, st.previous = some q → fieldAt b 153 1 = 1 ∧ (q.eSw < 2 ^ 48 → fieldAt b 154 6 = q.eSw))) ∧
  (∀ (cs : List Counter) (k n : Nat), cs[k]? = some n → n ≤ 4294967295 → fieldAt (cs.flatMap (beBytes 4)) (4 * k) 4 = n) ∧
  (∀ st : Station, (st.counterList.flatMap (beBytes 4)).length = 72 ∧ st.counterList =
    [st.counters.accepted, st.counters.byRoute, st.counters.byQuarantine, st.counters.byFormat, st.counters.storeNotReady,
     st.counters.late, st.counters.future, st.counters.noRecord, st.counters.noPage, st.counters.overlap,
     (st.channels.get 0).duplicates, (st.channels.get 0).stale, (st.channels.get 1).duplicates, (st.channels.get 1).stale,
     (st.channels.get 2).duplicates, (st.channels.get 2).stale, (st.channels.get 3).duplicates, (st.channels.get 3).stale]) ∧
  (∀ t : TrunkPort, (t.counterList.flatMap (beBytes 4)).length = 20 ∧
    t.counterList = [t.goodPackets, t.lengthErrors, t.checkErrors, t.overflows, t.unknownStation]) ∧
  (∀ c : ChainPort, (c.counterList.flatMap (beBytes 4)).length = 24 ∧
    c.counterList = [c.goodFrames, c.typeErrors, c.lengthErrors, c.checkErrors, c.overflows, c.forwardDrops]) ∧
  ∀ g : GlobalCounters, (g.counterList.flatMap (beBytes 4)).length = 24 ∧
    g.counterList =
      [g.packetsTaken, g.managementDrops, g.malformedPackets, g.receiveErrors, g.epochsDropped, g.noticesSent]

/-! ## Directives that set -/

/-- R15, R75: which rate codes fit which epoch lengths, with their n; SET-PLAN's four checks in their order, check 3 as the
greatest hold allowance that a window depth permits. -/
def Obligations.PlanAndSamplesPerEpoch : Prop :=
  ((∀ l, (l = 250 ∨ l = 500 ∨ l = 1000 ∨ l = 2000) → ∀ rate, rate ≤ 10 →
     (rate = 0 → samplesPerEpoch rate l = some 0) ∧
     (∀ n, rate ≠ 0 → (samplesPerEpoch rate l = some n ↔ n * 1000 = rateHz rate * l ∧ 1 ≤ n ∧ n ≤ 512)) ∧
     (∀ n, rate ≠ 0 → samplesPerEpoch rate l = some n → n * periodNs rate = l * 1000000)) ∧
   [1, 2, 3, 4, 5, 6, 7, 8, 9, 10].map rateHz = [1, 10, 20, 40, 50, 100, 200, 250, 500, 1000] ∧
   [1, 2, 3, 4, 5, 6, 7, 8, 9, 10].map periodNs =
     [1000000000, 100000000, 50000000, 25000000, 20000000, 10000000, 5000000, 4000000, 2000000, 1000000]) ∧
  (∀ (s : State) (p : Progress) (e : Entry) (rest : List Entry), Takes s p e rest 0x02 6 →
     let l := fieldAt e.params 0 2
     let w := fieldAt e.params 2 1
     let h := fieldAt e.params 3 2
     let action := fieldAt e.params 5 1
     let inRange := (l = 250 ∨ l = 500 ∨ l = 1000 ∨ l = 2000) ∧ 2 ≤ w ∧ w ≤ 8 ∧ h ≤ 30000 ∧ action ≤ 1
     let deep := h ≤ (w - 2) * l
     let fits := ∀ slot st, (slot, st) ∈ s.stations → ∀ c, (samplesPerEpoch (st.channels.get c).rate l).isSome = true
     (¬ inRange → exec .setPlan s = .next (s.finishEntry p e rest .refusedRange [])) ∧
     (inRange → s.store ≠ .idle → exec .setPlan s = .next (s.finishEntry p e rest .refusedState [])) ∧
     (inRange → s.store = .idle → ¬ deep → exec .setPlan s = .next (s.finishEntry p e rest .refusedRange [])) ∧
     (inRange → s.store = .idle → deep → ¬ fits → exec .setPlan s = .next (s.finishEntry p e rest .refusedRange [])) ∧
     (inRange → s.store = .idle → deep → fits → exec .setPlan s =
       .next (({ s with
         plan :=
           { epochLength := l, windowDepth := w, hold := h,
             failureAction := if action = 0 then .goOn else .withhold } } : State).finishEntry p e rest .done [])))

/-- R44, R53, R110, R148: SET-REFERENCE and SET-LINKS: out of range nothing changes; in range the settings take the values, and the
timers that have run their new limit expire as the directive takes effect. The order of the four expiries is the model's (log 23). -/
def Obligations.SetReferenceAndSetLinks : Prop :=
  ∀ (s : State) (p : Progress) (e : Entry) (rest : List Entry),
    (Takes s p e rest 0x03 6 →
      let wl := fieldAt e.params 0 2
      let limit := fieldAt e.params 2 4
      let inRange := 1 ≤ wl ∧ wl ≤ 1000 ∧ 10 ≤ limit ∧ limit ≤ 86400
      let s1 : State := { s with ref := { s.ref with lockWindow := wl, holdoverLimit := limit } }
      let expired := s.ref.state = .holdover ∧ ∃ n, s.ref.holdoverTimer = some n ∧ limit * 1000000000 ≤ n
      (¬ inRange → exec .setReference s = .next (s.finishEntry p e rest .refusedRange [])) ∧
      (inRange → ¬ expired → exec .setReference s = .next (s1.finishEntry p e rest .done [])) ∧
      (inRange → expired → ∃ t, exec .holdoverTimerExpiry s1 = .next t ∧ t.ref.state = .failed ∧
        exec .setReference s = .next (t.finishEntry p e rest .done []))) ∧
    (Takes s p e rest 0x04 3 →
      let loss := fieldAt e.params 0 2
      let stall := fieldAt e.params 2 1
      let inRange := 100 ≤ loss ∧ loss ≤ 5000 ∧ 1 ≤ stall ∧ stall ≤ 60
      let s1 : State := { s with linkLossTime := loss, stallLimit := stall }
      let runs := fun (t : Timer) (limit : Nat) => ∀ n, t = some n → n < limit
      (¬ inRange → exec .setLinks s = .next (s.finishEntry p e rest .refusedRange [])) ∧
      (inRange → runs s.portA.timer (loss * 1000000) → runs s.portB.timer (loss * 1000000) →
        runs s.chain.timer (loss * 1000000) → runs s.stallTimer (stall * 1000000000) →
        exec .setLinks s = .next (s1.finishEntry p e rest .done [])) ∧
      (inRange → ∃ a b c d, exec (.linkLossTimerExpiry .a) s1 = .next a ∧ exec (.linkLossTimerExpiry .b) a = .next b ∧
        exec .chainLinkLossTimerExpiry b = .next c ∧ exec .stallTimerExpiry c = .next d ∧
        exec .setLinks s = .next (d.finishEntry p e rest .done [])))

/-- R1, R3, R4, R26: MAP-STATION's checks in their order; the map stays in ascending order, and the record is as R4 sets it up. -/
def Obligations.MapStationChecks : Prop :=
  ∀ (s : State) (p : Progress) (e : Entry) (rest : List Entry), Takes s p e rest 0x05 6 → MapInv s →
    let code := fieldAt e.params 0 2
    let slot := fieldAt e.params 2 1
    let a := (fieldAt e.params 3 1).testBit 0
    let b := (fieldAt e.params 3 1).testBit 1
    let limit := fieldAt e.params 4 2
    let inRange := slot ≤ 191 ∧ (a = true ∨ b = true) ∧ 1 ≤ limit ∧ limit ≤ 600
    let known := ∃ x ∈ s.map, x.code = code
    (¬ inRange → exec .mapStation s = .next (s.finishEntry p e rest .refusedRange [])) ∧
    (inRange → known → exec .mapStation s = .next (s.finishEntry p e rest .refusedRange [])) ∧
    (inRange → ¬ known → 192 ≤ s.map.length → exec .mapStation s = .next (s.finishEntry p e rest .refusedBusy [])) ∧
    (inRange → ¬ known → s.map.length < 192 → (s.station slot).isSome = true →
      exec .mapStation s = .next (s.finishEntry p e rest .refusedState [])) ∧
    (inRange → ¬ known → s.map.length < 192 → s.station slot = none → ∃ m st,
      (∀ x, x ∈ m ↔ x = { code := code, slot := slot } ∨ x ∈ s.map) ∧ m.Pairwise (fun x y => x.code < y.code) ∧
      st.code = code ∧ st.state = .configured ∧ st.mask.a = a ∧ st.mask.b = b ∧ st.silenceLimit = limit ∧ st.silence = none ∧
      (∀ c, st.channels.get c =
        { rate := 0, word := .bits32, order := .mostFirst, window := none, duplicates := 0, stale := 0 }) ∧
      st.current =
        { offset := 0, drift := 0, refTime := 0, span := 86400, version := 0, isDefault := true, switch := none } ∧
      st.previous = none ∧ st.staged = none ∧ (∀ n ∈ st.counterList, n = 0) ∧
      exec .mapStation s =
        .next ((({ s with map := m } : State).putStation slot st).finishEntry p e rest .done []))

/-- R5, R88, R97: UNMAP-STATION's checks in their order, the removal, and the emptying of the slot's Open segments. -/
def Obligations.UnmapStationEmptiesSlot : Prop :=
  ∀ (s : State) (p : Progress) (e : Entry) (rest : List Entry), Takes s p e rest 0x06 1 →
    (∀ h, s.inHand = some h → h.slot ≠ fieldAt e.params 0 1) →
    let slot := fieldAt e.params 0 1
    (191 < slot → exec .unmapStation s = .next (s.finishEntry p e rest .refusedRange [])) ∧
    (slot ≤ 191 → s.station slot = none → exec .unmapStation s = .next (s.finishEntry p e rest .refusedTarget [])) ∧
    (slot ≤ 191 → ∀ st, s.station slot = some st → st.state ≠ .quarantined → s.store ≠ .idle →
      exec .unmapStation s = .next (s.finishEntry p e rest .refusedState [])) ∧
    (slot ≤ 191 → ∀ st, s.station slot = some st → s.store = .idle → exec .unmapStation s =
      .next (({ s with
        map := s.map.filter (fun x => decide (x.slot ≠ slot)), stations := assocErase s.stations slot } : State).finishEntry
          p e rest .done [])) ∧
    (slot ≤ 191 → ∀ st, s.station slot = some st → st.state = .quarantined → s.store ≠ .idle →
      assocSorted s.records = true →
      let pages := s.freePages ++ s.openRecords.flatMap (fun r =>
        ([0, 1, 2, 3] : List (Fin 4)).flatMap (fun c => (r.2.segment slot c).pageList))
      ∃ records,
        (∀ i r, assocGet s.records i = some r → r.state ≠ .opened → assocGet records i = some r) ∧
        (∀ i r, assocGet s.records i = some r → r.state = .opened → ∃ segments,
          assocGet records i = some { r with segments := segments } ∧
          ∀ k c, ({ r with segments := segments } : EpochRecord).segment k c =
            if k = slot then { n := 0, pages := [], fill := 0, filled := 0, residual := none, quality := 0 }
            else r.segment k c) ∧
        (∀ i, assocGet s.records i = none → assocGet records i = none) ∧
        exec .unmapStation s =
          .next (({ s with
            map := s.map.filter (fun x => decide (x.slot ≠ slot)), stations := assocErase s.stations slot
            records := records, freePages := pages
            store := if s.store = .starved ∧ 1024 ≤ pages.length then .ready else s.store } : State).finishEntry
              p e rest .done []))

/-- R17, R18, R19: SET-CHANNEL's checks in their order, the new descriptor, and the emptying of the channel's Open segments when the
rate code changes under a running store. -/
def Obligations.SetChannelChecks : Prop :=
  ∀ (s : State) (p : Progress) (e : Entry) (rest : List Entry), Takes s p e rest 0x07 5 →
    (∀ h, s.inHand = some h → h.slot ≠ fieldAt e.params 0 1) →
    let slot := fieldAt e.params 0 1
    let channel := fieldAt e.params 1 1
    let rate := fieldAt e.params 2 1
    let word := fieldAt e.params 3 1
    let order := fieldAt e.params 4 1
    let inRange := slot ≤ 191 ∧ channel ≤ 3 ∧ rate ≤ 10 ∧ word ≤ 2 ∧ order ≤ 1
    (¬ inRange → exec .setChannel s = .next (s.finishEntry p e rest .refusedRange [])) ∧
    (inRange → s.station slot = none → exec .setChannel s = .next (s.finishEntry p e rest .refusedTarget [])) ∧
    (inRange → ∀ st, s.station slot = some st →
      let ready := st.state = .configured ∨ st.state = .quarantined ∨ s.store = .idle
      let fits := (samplesPerEpoch rate s.plan.epochLength).isSome = true
      (¬ ready → exec .setChannel s = .next (s.finishEntry p e rest .refusedState [])) ∧
      (ready → ¬ fits → exec .setChannel s = .next (s.finishEntry p e rest .refusedRange [])) ∧
      (ready → fits → ∀ c : Fin 4, c.val = channel →
        let ch : Channel :=
          { st.channels.get c with
            rate := rate
            word := if word = 0 then .bits16 else if word = 1 then .bits24 else .bits32
            order := if order = 0 then .mostFirst else .leastFirst
            window := none }
        let s1 := s.putStation slot { st with channels := st.channels.set c ch }
        (s.store = .idle ∨ (st.channels.get c).rate = rate →
          exec .setChannel s = .next (s1.finishEntry p e rest .done [])) ∧
        (s.store ≠ .idle → (st.channels.get c).rate ≠ rate → assocSorted s.records = true →
          let pages := s.freePages ++ s.openRecords.flatMap (fun r => (r.2.segment slot c).pageList)
          ∃ records,
            (∀ i r, assocGet s.records i = some r → r.state ≠ .opened → assocGet records i = some r) ∧
            (∀ i r, assocGet s.records i = some r → r.state = .opened → ∃ segments,
              assocGet records i = some { r with segments := segments } ∧
              ∀ k d, ({ r with segments := segments } : EpochRecord).segment k d =
                if k = slot ∧ d = c then
                  { n := nOf rate s.plan.epochLength, pages := [], fill := 0, filled := 0, residual := none, quality := 0 }
                else r.segment k d) ∧
            (∀ i, assocGet s.records i = none → assocGet records i = none) ∧
            exec .setChannel s =
              .next (({ s1 with
                records := records, freePages := pages
                store := if s.store = .starved ∧ 1024 ≤ pages.length then .ready else s.store } : State).finishEntry
                  p e rest .done []))))

/-- R11, R12: QUARANTINE and UNQUARANTINE. -/
def Obligations.QuarantineAndRelease : Prop :=
  ∀ (s : State) (p : Progress) (e : Entry) (rest : List Entry) (i : Instr) (code : Nat),
    (i = .quarantine ∧ code = 0x0B ∨ i = .unquarantine ∧ code = 0x0C) → Takes s p e rest code 1 →
    (∀ h, s.inHand = some h → h.slot ≠ fieldAt e.params 0 1) →
    let slot := fieldAt e.params 0 1
    (191 < slot → exec i s = .next (s.finishEntry p e rest .refusedRange [])) ∧
    (slot ≤ 191 → s.station slot = none → exec i s = .next (s.finishEntry p e rest .refusedTarget [])) ∧
    (slot ≤ 191 → ∀ st, s.station slot = some st →
      (i = .quarantine → st.state = .quarantined → exec i s = .next (s.finishEntry p e rest .noEffect [])) ∧
      (i = .quarantine → st.state ≠ .quarantined → exec i s =
        .next ((s.putStation slot { st with state := .quarantined, silence := none }).finishEntry p e rest .done [])) ∧
      (i = .unquarantine → st.state ≠ .quarantined → exec i s = .next (s.finishEntry p e rest .noEffect [])) ∧
      (i = .unquarantine → st.state = .quarantined → ∃ chs : Quad Channel,
        (∀ c, chs.get c = { st.channels.get c with window := none }) ∧
        exec i s = .next ((s.putStation slot
          { st with state := .configured, silence := none, channels := chs }).finishEntry p e rest .done [])))

/-- R24, R27, R28, R29, R30, R31, R32, R35, R70: STAGE-CORRECTION, DISCARD-STAGED, and COMMIT-CORRECTION with E_sw and the
retirement test, each with its checks in their order. -/
def Obligations.CorrectionDirectives : Prop :=
  (∀ (s : State) (p : Progress) (e : Entry) (rest : List Entry),
     (∀ h, s.inHand = some h → h.slot ≠ fieldAt e.params 0 1) →
     let slot := fieldAt e.params 0 1
     (Takes s p e rest 0x08 25 →
       let offset := signedOf 64 (fieldAt e.params 1 8)
       let drift := signedOf 32 (fieldAt e.params 9 4)
       let span := fieldAt e.params 19 4
       let inRange := slot ≤ 191 ∧ -500000000000 ≤ offset ∧ offset ≤ 500000000000 ∧ -250000 ≤ drift ∧ drift ≤ 250000 ∧
         1 ≤ span ∧ span ≤ 86400
       (¬ inRange → exec .stageCorrection s = .next (s.finishEntry p e rest .refusedRange [])) ∧
       (inRange → s.station slot = none → exec .stageCorrection s = .next (s.finishEntry p e rest .refusedTarget [])) ∧
       (inRange → ∀ st, s.station slot = some st → exec .stageCorrection s =
         .next ((s.putStation slot
           { st with
             staged := some
               { offset := offset, drift := drift, refTime := fieldAt e.params 13 6, span := span,
                 version := fieldAt e.params 23 2, isDefault := false, switch := none } }).finishEntry p e rest .done []))) ∧
     (Takes s p e rest 0x0A 1 →
       (191 < slot → exec .discardStaged s = .next (s.finishEntry p e rest .refusedRange [])) ∧
       (slot ≤ 191 → s.station slot = none → exec .discardStaged s = .next (s.finishEntry p e rest .refusedTarget [])) ∧
       (slot ≤ 191 → ∀ st, s.station slot = some st →
         (st.staged = none → exec .discardStaged s = .next (s.finishEntry p e rest .noEffect [])) ∧
         (st.staged ≠ none → exec .discardStaged s =
           .next ((s.putStation slot { st with staged := none }).finishEntry p e rest .done []))))) ∧
  (∀ (s : State) (p : Progress) (e : Entry) (rest : List Entry), Takes s p e rest 0x09 7 →
     (∀ h, s.inHand = some h → h.slot ≠ fieldAt e.params 0 1) → (s.eLo = none ↔ s.store = .idle) →
     let slot := fieldAt e.params 0 1
     let switch := fieldAt e.params 1 6
     (191 < slot → exec .commitCorrection s = .next (s.finishEntry p e rest .refusedRange [])) ∧
     (slot ≤ 191 → s.station slot = none → exec .commitCorrection s = .next (s.finishEntry p e rest .refusedTarget [])) ∧
     (slot ≤ 191 → ∀ st, s.station slot = some st →
       (st.staged = none → exec .commitCorrection s = .next (s.finishEntry p e rest .refusedState [])) ∧
       (st.staged ≠ none → st.previous ≠ none →
         exec .commitCorrection s = .next (s.finishEntry p e rest .refusedBusy [])) ∧
       (∀ staged, st.staged = some staged → st.previous = none →
         let current := { staged with switch := some switch }
         let eSw := netTime current switch / (s.plan.epochLength * 1000000)
         let retired := s.store = .idle ∨ ∃ lo, s.eLo = some lo ∧ eSw < lo
         (retired → exec .commitCorrection s =
           .next ((s.putStation slot { st with current := current, previous := none, staged := none }).finishEntry p e rest .done
             (beBytes 6 eSw ++ [1, 0]))) ∧
         (¬ retired → exec .commitCorrection s =
           .next ((s.putStation slot
             { st with current := current, previous := some { record := st.current, eSw := eSw }, staged := none }).finishEntry
               p e rest .done (beBytes 6 eSw ++ [0, 0]))))))

/-! ## Store states and RESTART -/

/-- R34, R84, R94, R98, R99, R100: STORE-START sets up the window from the smallest epoch whose close time lies above NT_now and
that lies above every record still held; STORE-SUSPEND, STORE-RESUME and STORE-STOP in each store state. -/
def Obligations.StoreDirectives : Prop :=
  (∀ (s : State) (p : Progress) (e : Entry) (rest : List Entry), Takes s p e rest 0x13 0 →
     let above := fun n : Nat => s.ref.ntNow < (n + 1) * (s.plan.epochLength * 1000000) + s.plan.hold * 1000000 ∧
       ∀ i r, (i, r) ∈ s.records → r.number < n
     (s.store ≠ .idle → exec .storeStart s = .next (s.finishEntry p e rest .refusedState [])) ∧
     (s.store = .idle → StoreInv s → ∃ (t : State) (lo : Nat), exec .storeStart s = .next (t.finishEntry p e rest .done []) ∧
       above lo ∧ (∀ n, above n → lo ≤ n) ∧ t.eLo = some lo ∧ t.store = .ready ∧
       t.openRecords.map (·.2.number) = List.range' lo t.openCount ∧
       t.openCount = min s.plan.windowDepth (16 - s.records.length) ∧
       (hasFlag t.flags .windowShort = true ↔ hasFlag s.flags .windowShort = true ∨ 16 - s.records.length < s.plan.windowDepth) ∧
       (∀ i r, assocGet s.records i = some r → assocGet t.records i = some r) ∧
       t = { s with
         eLo := t.eLo, store := t.store, records := t.records, flags := t.flags, noticeSlot := t.noticeSlot })) ∧
  (∀ (s : State) (p : Progress) (e : Entry) (rest : List Entry),
     (Takes s p e rest 0x15 0 →
       (s.store = .ready ∨ s.store = .starved → exec .storeSuspend s =
         .next (({ s with
           store := .suspended, rememberedStarved := decide (s.store = .starved) } : State).finishEntry p e rest .done [])) ∧
       (s.store = .suspended → exec .storeSuspend s = .next (s.finishEntry p e rest .noEffect [])) ∧
       (s.store = .idle → exec .storeSuspend s = .next (s.finishEntry p e rest .refusedState []))) ∧
     (Takes s p e rest 0x16 0 →
       (s.store = .suspended → s.rememberedStarved = false ∨ 1024 ≤ s.freePages.length → exec .storeResume s =
         .next (({ s with store := .ready, rememberedStarved := false } : State).finishEntry p e rest .done [])) ∧
       (s.store = .suspended → s.rememberedStarved = true → s.freePages.length < 1024 → exec .storeResume s =
         .next (({ ({ s with store := .starved } : State).raise .storeStarved with
           rememberedStarved := false } : State).finishEntry p e rest .done [])) ∧
       (s.store = .ready ∨ s.store = .starved → exec .storeResume s = .next (s.finishEntry p e rest .noEffect [])) ∧
       (s.store = .idle → exec .storeResume s = .next (s.finishEntry p e rest .refusedState []))) ∧
     (Takes s p e rest 0x14 0 →
       (s.store = .idle → exec .storeStop s = .next (s.finishEntry p e rest .noEffect [])) ∧
       (s.store ≠ .idle → assocSorted s.records = true → ∃ t : State, exec .storeStop s = .next (t.finishEntry p e rest .done []) ∧
         (∀ i r, assocGet s.records i = some r → r.state = .opened → assocGet t.records i = none) ∧
         (∀ i r, assocGet s.records i = some r → r.state ≠ .opened → assocGet t.records i = some r) ∧
         (∀ i, assocGet s.records i = none → assocGet t.records i = none) ∧
         (∀ slot, t.station slot = (s.station slot).map (fun st => { st with previous := none })) ∧
         t = { s with
           store := .idle, eLo := none, pendingSkip := 0, rememberedStarved := false
           freePages := s.freePages ++ s.openRecords.flatMap (fun r => r.2.pageList)
           records := t.records, stations := t.stations })))

/-- R23, R34, R102, R118, R143, R151, R178: RESTART in every block. That the records it frees at once, the Emitting one of a Building
Emitter among them, return their pages in increasing epoch number together is the model's (log 19); so is that it discards deferred stall expiries (log 11,
unsafe). -/
def Obligations.RestartOfEveryBlock : Prop :=
  ∀ (s : State) (p : Progress) (e : Entry) (rest : List Entry), Takes s p e rest 0x17 0 → s.inHand = none →
    assocSorted s.records = true →
    let freed := fun (i : Nat) (r : EpochRecord) =>
      r.state = .opened ∨ r.state = .closed ∨ ∃ b, s.emitter = .building b ∧ b.record = i
    ∃ t : State, exec .restart s = .next (t.finishEntry p e rest .done []) ∧
      (∀ q, t.trunk q =
        { s.trunk q with
          fifo := [], goodPackets := 0, lengthErrors := 0, checkErrors := 0, overflows := 0, unknownStation := 0 }) ∧
      (∀ slot, s.station slot = none → t.station slot = none) ∧
      (∀ slot st, s.station slot = some st → ∃ st', t.station slot = some st' ∧
        st'.state = (if st.state = .quarantined then .quarantined else .configured) ∧ st'.silence = none ∧
        st'.code = st.code ∧ st'.mask = st.mask ∧ st'.silenceLimit = st.silenceLimit ∧ st'.current = st.current ∧
        st'.staged = st.staged ∧ st'.previous = none ∧ (∀ n ∈ st'.counterList, n = 0) ∧
        ∀ c, (st'.channels.get c).rate = (st.channels.get c).rate ∧ (st'.channels.get c).word = (st.channels.get c).word ∧
          (st'.channels.get c).order = (st.channels.get c).order ∧ (st'.channels.get c).window = none) ∧
      (∀ i r, assocGet s.records i = some r → freed i r → assocGet t.records i = none) ∧
      (∀ i r, assocGet s.records i = some r → ¬ freed i r → assocGet t.records i = some r) ∧
      (∀ i, assocGet s.records i = none → assocGet t.records i = none) ∧
      (t.emitter = .idle ∨ ∃ b fate, s.emitter = .sending b fate ∧ ∃ fate', t.emitter = .sending b fate' ∧ fate' ≠ .goesOn) ∧
      (∀ b fate, s.emitter = .sending b fate → t.emitter ≠ .idle) ∧
      (∀ n ∈ t.chain.counterList, n = 0) ∧ (∀ n ∈ t.globals.counterList, n = 0) ∧
      t.chain.link = s.chain.link ∧ t.chain.timer = s.chain.timer ∧ t.chain.buffer = s.chain.buffer ∧
      t.chain.outwardHold = s.chain.outwardHold ∧ t.chain.forwardQueue = s.chain.forwardQueue ∧
      t.chain.outgoing = s.chain.outgoing ∧
      t = { s with
        portA := t.portA, portB := t.portB, stations := t.stations, records := t.records, emitter := t.emitter
        chain := t.chain, globals := t.globals, store := .idle, eLo := none, pendingSkip := 0, rememberedStarved := false
        closedQueue := [], deferredExpiries := 0, noticeSlot := none, flags := 0
        freePages := s.freePages ++ (byEpoch s.restartRecords).flatMap (fun r => r.2.pageList) }

/-! ## Frames and invariants -/

/-- What each command leaves of the configuration and of the sample memory, whatever it does; and the frame of TIME_MARK (R41,
R45): a step moves no timer but those of the Reference Clock Unit, no sample, no page, and nothing of the trunk ports, the
links, the map and the agent's queues. A Withhold suspension still to take effect does so before a step (log 12). -/
def Obligations.CommandsKeepWhatTheyDoNotSet : Prop :=
  (∀ (c : Instr) (s t : State), exec c s = .next t →
     t.pending = s.pending ∧ t.quantum = s.quantum ∧
     ((∀ straps, c ≠ .powerOnReset straps) →
       t.unitAddress = s.unitAddress ∧
       (c ≠ .handOff → t.memory = s.memory) ∧
       (c ≠ .setPlan → t.plan = s.plan) ∧
       (c ≠ .setNoticeMask → t.noticeMask = s.noticeMask) ∧
       (c ≠ .setLinks → t.linkLossTime = s.linkLossTime ∧ t.stallLimit = s.stallLimit) ∧
       (c ≠ .setReference → t.ref.lockWindow = s.ref.lockWindow ∧ t.ref.holdoverLimit = s.ref.holdoverLimit) ∧
       (c ≠ .mapStation → c ≠ .unmapStation → t.map = s.map) ∧
       ((∀ m, c ≠ .timeMark m) → t.ref.ntNow = s.ref.ntNow))) ∧
  (∀ (s : State) (mark : Mark), ∃ t, exec (.timeMark mark) s = .next t ∧
     t.portA = s.portA ∧ t.portB = s.portB ∧ t.chain = s.chain ∧ t.stallTimer = s.stallTimer ∧
     (∀ slot, (t.station slot).map (fun st => { st with previous := none }) =
       (s.station slot).map (fun st => { st with previous := none })) ∧
     (∀ a, readByte t.memory a = readByte s.memory a) ∧ t.freePages = s.freePages ∧ t.inHand = s.inHand ∧ t.map = s.map ∧
     t.plan = s.plan ∧ (s.failureSignal = false → t.store = s.store) ∧ t.hold = s.hold ∧ t.emitter = s.emitter ∧ t.transmitting = s.transmitting ∧
     t.answerQueue = s.answerQueue ∧ t.inbound = s.inbound ∧ t.agent = s.agent ∧ t.noticeMask = s.noticeMask ∧
     t.globals = s.globals ∧ t.ref.lockWindow = s.ref.lockWindow ∧ t.ref.holdoverLimit = s.ref.holdoverLimit)

/-- "Most commands act only in a state that their rule names": in any other the part stays as it was, the model's choice (log 1); that a
take is not possible while a directive waits, or a Withhold suspension is still to take effect, is deduced (logs 9 and 12). -/
def Obligations.ImpossibleStepsChangeNothing : Prop :=
  ∀ s : State,
    ((s.inHand ≠ none ∨ s.agent.isHeld = true ∨ s.failureSignal = true ∨ s.portA.fifo = [] ∧ s.portB.fifo = []) → exec .arbiterTake s = .next s) ∧
    (s.inHand = none → exec .handOff s = .next s) ∧
    (∀ p, (s.trunk p).link = .down → exec (.lossOfSignalIndication p) s = .next s) ∧
    (∀ p, (∀ n, (s.trunk p).timer = some n → n < s.linkLossTime * 1000000) → exec (.linkLossTimerExpiry p) s = .next s) ∧
    ((∀ n, s.chain.timer = some n → n < s.linkLossTime * 1000000) → exec .chainLinkLossTimerExpiry s = .next s) ∧
    ((∀ n, s.stallTimer = some n → n < s.stallLimit * 1000000000) → exec .stallTimerExpiry s = .next s) ∧
    ((∀ n, s.ref.markTimer = some n → n < 1500000000) → exec .markTimerExpiry s = .next s) ∧
    ((∀ n, s.ref.holdoverTimer = some n → n < s.ref.holdoverLimit * 1000000000) → exec .holdoverTimerExpiry s = .next s) ∧
    (∀ slot st, s.station slot = some st → (∀ n, st.silence = some n → n < st.silenceLimit * 1000000000) →
      exec (.silenceTimerExpiry slot) s = .next s) ∧
    (s.failureSignal = false → exec .withholdSuspension s = .next s) ∧
    ((∀ lo, s.eLo = some lo → s.ref.ntNow < (lo + 1) * (s.plan.epochLength * 1000000) + s.plan.hold * 1000000) →
      exec .closeTimeReached s = .next s) ∧
    (s.chain.outgoing = none → exec .forwardComplete s = .next s) ∧
    (s.transmitting = none → exec .fragmentCompletion s = .next s ∧ exec .answerCompletion s = .next s ∧
      exec .passThroughCompletion s = .next s ∧ exec .noticeCompletion s = .next s) ∧
    (s.inbound = [] → s.agent.progress = none → exec .beginPacket s = .next s) ∧
    (s.agent.progress = none → ∀ i code length, directiveCode i = some (code, length) → exec i s = .next s)

/-- R1. -/
def Obligations.MapStaysOneToOne : Prop := ∀ s t : State, MapInv s → step s = .next t → MapInv t

/-- R22, R111, R159, R177: how a counter rises, by the amount given and no further than 4,294,967,295; and the capacities, the
32-bit counters, and the canonical form of the sample memory through every step. -/
def Obligations.QueuesCountersAndMemoryStaySound : Prop :=
  (∀ c n : Nat, bump c n = min (c + n) 4294967295) ∧
  ∀ s t : State, step s = .next t →
    (CapacityInv s → CapacityInv t) ∧ (CounterInv s → CounterInv t) ∧
    (Memory.wf s.memory = true → Memory.wf t.memory = true)

/-- R8, R41, R51, R53, R107, R148, R155. That no timer overruns its limit rests on when the model lets time pass (log 2). -/
def Obligations.TimersRunInTheirStates : Prop := ∀ s t : State, TimerInv s → step s = .next t → TimerInv t

/-- R43, R46 to R54. That NT_now keeps to its 64 bits past the end of its range rests on log 13. -/
def Obligations.ReferenceStateStaysConsistent : Prop := ∀ s t : State, RefInv s → step s = .next t → RefInv t

/-- R15, R24, R25, R33, R34, R74, R75: the correction records, and the plan with every channel's rate code. -/
def Obligations.RecordsAndPlanStayConsistent : Prop :=
  (∀ s t : State, CorrectionInv s → step s = .next t → CorrectionInv t) ∧
  (∀ s t : State, PlanInv s → step s = .next t → PlanInv t)

/-- R55, R77, R80 to R84, R93, R128. -/
def Obligations.WindowAndQueueStayConsistent : Prop := ∀ s t : State, StoreInv s → step s = .next t → StoreInv t

/-- R85. -/
def Obligations.EveryPageStaysInOnePlace : Prop := ∀ s t : State, PageInv s → step s = .next t → PageInv t

/-- R19, R79, R90, R91. -/
def Obligations.OpenSegmentsStaySound : Prop :=
  ∀ s t : State, PlanInv s → StoreInv s → PageInv s → SegmentInv s → step s = .next t → SegmentInv t

/-- The invariants hold right after power-on reset. -/
def Obligations.InvariantsAtReset : Prop :=
  MapInv State.reset ∧ CapacityInv State.reset ∧ CounterInv State.reset ∧ Memory.wf State.reset.memory = true ∧
  TimerInv State.reset ∧ RefInv State.reset ∧ CorrectionInv State.reset ∧ PlanInv State.reset ∧ StoreInv State.reset ∧
  PageInv State.reset ∧ SegmentInv State.reset
end

