-- ==== Sys2Proof/Laws/State.lean ====
section
/-! SUPPORT. What each named update leaves of each field, so that no later proof unfolds a record update. -/

namespace Sys2Proof.Machine

@[simp] theorem State.putStation_pending (s : State) (slot : Nat) (st : Station) :
    (s.putStation slot st).pending = s.pending := rfl
@[simp] theorem State.putStation_quantum (s : State) (slot : Nat) (st : Station) :
    (s.putStation slot st).quantum = s.quantum := rfl
@[simp] theorem State.putStation_ties (s : State) (slot : Nat) (st : Station) : (s.putStation slot st).ties = s.ties := rfl
@[simp] theorem State.putStation_unitAddress (s : State) (slot : Nat) (st : Station) :
    (s.putStation slot st).unitAddress = s.unitAddress := rfl
@[simp] theorem State.putStation_portA (s : State) (slot : Nat) (st : Station) : (s.putStation slot st).portA = s.portA := rfl
@[simp] theorem State.putStation_portB (s : State) (slot : Nat) (st : Station) : (s.putStation slot st).portB = s.portB := rfl
@[simp] theorem State.putStation_linkLossTime (s : State) (slot : Nat) (st : Station) :
    (s.putStation slot st).linkLossTime = s.linkLossTime := rfl
@[simp] theorem State.putStation_nextPort (s : State) (slot : Nat) (st : Station) :
    (s.putStation slot st).nextPort = s.nextPort := rfl
@[simp] theorem State.putStation_inHand (s : State) (slot : Nat) (st : Station) :
    (s.putStation slot st).inHand = s.inHand := rfl
@[simp] theorem State.putStation_map (s : State) (slot : Nat) (st : Station) : (s.putStation slot st).map = s.map := rfl
@[simp] theorem State.putStation_stations (s : State) (slot : Nat) (st : Station) :
    (s.putStation slot st).stations = assocPut s.stations slot st := rfl
@[simp] theorem State.putStation_ref (s : State) (slot : Nat) (st : Station) : (s.putStation slot st).ref = s.ref := rfl
@[simp] theorem State.putStation_plan (s : State) (slot : Nat) (st : Station) : (s.putStation slot st).plan = s.plan := rfl
@[simp] theorem State.putStation_store (s : State) (slot : Nat) (st : Station) : (s.putStation slot st).store = s.store := rfl
@[simp] theorem State.putStation_rememberedStarved (s : State) (slot : Nat) (st : Station) :
    (s.putStation slot st).rememberedStarved = s.rememberedStarved := rfl
@[simp] theorem State.putStation_failureSignal (s : State) (slot : Nat) (st : Station) :
    (s.putStation slot st).failureSignal = s.failureSignal := rfl
@[simp] theorem State.putStation_eLo (s : State) (slot : Nat) (st : Station) : (s.putStation slot st).eLo = s.eLo := rfl
@[simp] theorem State.putStation_pendingSkip (s : State) (slot : Nat) (st : Station) :
    (s.putStation slot st).pendingSkip = s.pendingSkip := rfl
@[simp] theorem State.putStation_records (s : State) (slot : Nat) (st : Station) :
    (s.putStation slot st).records = s.records := rfl
@[simp] theorem State.putStation_freePages (s : State) (slot : Nat) (st : Station) :
    (s.putStation slot st).freePages = s.freePages := rfl
@[simp] theorem State.putStation_memory (s : State) (slot : Nat) (st : Station) :
    (s.putStation slot st).memory = s.memory := rfl
@[simp] theorem State.putStation_closedQueue (s : State) (slot : Nat) (st : Station) :
    (s.putStation slot st).closedQueue = s.closedQueue := rfl
@[simp] theorem State.putStation_emitter (s : State) (slot : Nat) (st : Station) :
    (s.putStation slot st).emitter = s.emitter := rfl
@[simp] theorem State.putStation_deferredExpiries (s : State) (slot : Nat) (st : Station) :
    (s.putStation slot st).deferredExpiries = s.deferredExpiries := rfl
@[simp] theorem State.putStation_hold (s : State) (slot : Nat) (st : Station) : (s.putStation slot st).hold = s.hold := rfl
@[simp] theorem State.putStation_stallTimer (s : State) (slot : Nat) (st : Station) :
    (s.putStation slot st).stallTimer = s.stallTimer := rfl
@[simp] theorem State.putStation_stallLimit (s : State) (slot : Nat) (st : Station) :
    (s.putStation slot st).stallLimit = s.stallLimit := rfl
@[simp] theorem State.putStation_answerQueue (s : State) (slot : Nat) (st : Station) :
    (s.putStation slot st).answerQueue = s.answerQueue := rfl
@[simp] theorem State.putStation_noticeSlot (s : State) (slot : Nat) (st : Station) :
    (s.putStation slot st).noticeSlot = s.noticeSlot := rfl
@[simp] theorem State.putStation_nextData (s : State) (slot : Nat) (st : Station) :
    (s.putStation slot st).nextData = s.nextData := rfl
@[simp] theorem State.putStation_transmitting (s : State) (slot : Nat) (st : Station) :
    (s.putStation slot st).transmitting = s.transmitting := rfl
@[simp] theorem State.putStation_chain (s : State) (slot : Nat) (st : Station) : (s.putStation slot st).chain = s.chain := rfl
@[simp] theorem State.putStation_inbound (s : State) (slot : Nat) (st : Station) :
    (s.putStation slot st).inbound = s.inbound := rfl
@[simp] theorem State.putStation_agent (s : State) (slot : Nat) (st : Station) : (s.putStation slot st).agent = s.agent := rfl
@[simp] theorem State.putStation_flags (s : State) (slot : Nat) (st : Station) : (s.putStation slot st).flags = s.flags := rfl
@[simp] theorem State.putStation_noticeMask (s : State) (slot : Nat) (st : Station) :
    (s.putStation slot st).noticeMask = s.noticeMask := rfl
@[simp] theorem State.putStation_globals (s : State) (slot : Nat) (st : Station) :
    (s.putStation slot st).globals = s.globals := rfl

@[simp] theorem State.returnPages_pending (s : State) (ps : List PageNo) : (s.returnPages ps).pending = s.pending := rfl
@[simp] theorem State.returnPages_quantum (s : State) (ps : List PageNo) : (s.returnPages ps).quantum = s.quantum := rfl
@[simp] theorem State.returnPages_ties (s : State) (ps : List PageNo) : (s.returnPages ps).ties = s.ties := rfl
@[simp] theorem State.returnPages_unitAddress (s : State) (ps : List PageNo) :
    (s.returnPages ps).unitAddress = s.unitAddress := rfl
@[simp] theorem State.returnPages_portA (s : State) (ps : List PageNo) : (s.returnPages ps).portA = s.portA := rfl
@[simp] theorem State.returnPages_portB (s : State) (ps : List PageNo) : (s.returnPages ps).portB = s.portB := rfl
@[simp] theorem State.returnPages_linkLossTime (s : State) (ps : List PageNo) :
    (s.returnPages ps).linkLossTime = s.linkLossTime := rfl
@[simp] theorem State.returnPages_nextPort (s : State) (ps : List PageNo) : (s.returnPages ps).nextPort = s.nextPort := rfl
@[simp] theorem State.returnPages_inHand (s : State) (ps : List PageNo) : (s.returnPages ps).inHand = s.inHand := rfl
@[simp] theorem State.returnPages_map (s : State) (ps : List PageNo) : (s.returnPages ps).map = s.map := rfl
@[simp] theorem State.returnPages_stations (s : State) (ps : List PageNo) : (s.returnPages ps).stations = s.stations := rfl
@[simp] theorem State.returnPages_ref (s : State) (ps : List PageNo) : (s.returnPages ps).ref = s.ref := rfl
@[simp] theorem State.returnPages_plan (s : State) (ps : List PageNo) : (s.returnPages ps).plan = s.plan := rfl
@[simp] theorem State.returnPages_store (s : State) (ps : List PageNo) : (s.returnPages ps).store = s.store := rfl
@[simp] theorem State.returnPages_rememberedStarved (s : State) (ps : List PageNo) :
    (s.returnPages ps).rememberedStarved = s.rememberedStarved := rfl
@[simp] theorem State.returnPages_failureSignal (s : State) (ps : List PageNo) :
    (s.returnPages ps).failureSignal = s.failureSignal := rfl
@[simp] theorem State.returnPages_eLo (s : State) (ps : List PageNo) : (s.returnPages ps).eLo = s.eLo := rfl
@[simp] theorem State.returnPages_pendingSkip (s : State) (ps : List PageNo) :
    (s.returnPages ps).pendingSkip = s.pendingSkip := rfl
@[simp] theorem State.returnPages_records (s : State) (ps : List PageNo) : (s.returnPages ps).records = s.records := rfl
@[simp] theorem State.returnPages_freePages (s : State) (ps : List PageNo) :
    (s.returnPages ps).freePages = s.freePages ++ ps := rfl
@[simp] theorem State.returnPages_memory (s : State) (ps : List PageNo) : (s.returnPages ps).memory = s.memory := rfl
@[simp] theorem State.returnPages_closedQueue (s : State) (ps : List PageNo) :
    (s.returnPages ps).closedQueue = s.closedQueue := rfl
@[simp] theorem State.returnPages_emitter (s : State) (ps : List PageNo) : (s.returnPages ps).emitter = s.emitter := rfl
@[simp] theorem State.returnPages_deferredExpiries (s : State) (ps : List PageNo) :
    (s.returnPages ps).deferredExpiries = s.deferredExpiries := rfl
@[simp] theorem State.returnPages_hold (s : State) (ps : List PageNo) : (s.returnPages ps).hold = s.hold := rfl
@[simp] theorem State.returnPages_stallTimer (s : State) (ps : List PageNo) :
    (s.returnPages ps).stallTimer = s.stallTimer := rfl
@[simp] theorem State.returnPages_stallLimit (s : State) (ps : List PageNo) :
    (s.returnPages ps).stallLimit = s.stallLimit := rfl
@[simp] theorem State.returnPages_answerQueue (s : State) (ps : List PageNo) :
    (s.returnPages ps).answerQueue = s.answerQueue := rfl
@[simp] theorem State.returnPages_noticeSlot (s : State) (ps : List PageNo) :
    (s.returnPages ps).noticeSlot = s.noticeSlot := rfl
@[simp] theorem State.returnPages_nextData (s : State) (ps : List PageNo) : (s.returnPages ps).nextData = s.nextData := rfl
@[simp] theorem State.returnPages_transmitting (s : State) (ps : List PageNo) :
    (s.returnPages ps).transmitting = s.transmitting := rfl
@[simp] theorem State.returnPages_chain (s : State) (ps : List PageNo) : (s.returnPages ps).chain = s.chain := rfl
@[simp] theorem State.returnPages_inbound (s : State) (ps : List PageNo) : (s.returnPages ps).inbound = s.inbound := rfl
@[simp] theorem State.returnPages_agent (s : State) (ps : List PageNo) : (s.returnPages ps).agent = s.agent := rfl
@[simp] theorem State.returnPages_flags (s : State) (ps : List PageNo) : (s.returnPages ps).flags = s.flags := rfl
@[simp] theorem State.returnPages_noticeMask (s : State) (ps : List PageNo) :
    (s.returnPages ps).noticeMask = s.noticeMask := rfl
@[simp] theorem State.returnPages_globals (s : State) (ps : List PageNo) : (s.returnPages ps).globals = s.globals := rfl

@[simp] theorem State.openEpoch_pending (s : State) (i e : Nat) : (s.openEpoch i e).pending = s.pending := rfl
@[simp] theorem State.openEpoch_quantum (s : State) (i e : Nat) : (s.openEpoch i e).quantum = s.quantum := rfl
@[simp] theorem State.openEpoch_ties (s : State) (i e : Nat) : (s.openEpoch i e).ties = s.ties := rfl
@[simp] theorem State.openEpoch_unitAddress (s : State) (i e : Nat) : (s.openEpoch i e).unitAddress = s.unitAddress := rfl
@[simp] theorem State.openEpoch_portA (s : State) (i e : Nat) : (s.openEpoch i e).portA = s.portA := rfl
@[simp] theorem State.openEpoch_portB (s : State) (i e : Nat) : (s.openEpoch i e).portB = s.portB := rfl
@[simp] theorem State.openEpoch_linkLossTime (s : State) (i e : Nat) : (s.openEpoch i e).linkLossTime = s.linkLossTime := rfl
@[simp] theorem State.openEpoch_nextPort (s : State) (i e : Nat) : (s.openEpoch i e).nextPort = s.nextPort := rfl
@[simp] theorem State.openEpoch_inHand (s : State) (i e : Nat) : (s.openEpoch i e).inHand = s.inHand := rfl
@[simp] theorem State.openEpoch_map (s : State) (i e : Nat) : (s.openEpoch i e).map = s.map := rfl
@[simp] theorem State.openEpoch_stations (s : State) (i e : Nat) : (s.openEpoch i e).stations = s.stations := rfl
@[simp] theorem State.openEpoch_ref (s : State) (i e : Nat) : (s.openEpoch i e).ref = s.ref := rfl
@[simp] theorem State.openEpoch_plan (s : State) (i e : Nat) : (s.openEpoch i e).plan = s.plan := rfl
@[simp] theorem State.openEpoch_store (s : State) (i e : Nat) : (s.openEpoch i e).store = s.store := rfl
@[simp] theorem State.openEpoch_rememberedStarved (s : State) (i e : Nat) :
    (s.openEpoch i e).rememberedStarved = s.rememberedStarved := rfl
@[simp] theorem State.openEpoch_failureSignal (s : State) (i e : Nat) : (s.openEpoch i e).failureSignal = s.failureSignal := rfl
@[simp] theorem State.openEpoch_eLo (s : State) (i e : Nat) : (s.openEpoch i e).eLo = s.eLo := rfl
@[simp] theorem State.openEpoch_pendingSkip (s : State) (i e : Nat) : (s.openEpoch i e).pendingSkip = s.pendingSkip := rfl
@[simp] theorem State.openEpoch_records (s : State) (i e : Nat) :
    (s.openEpoch i e).records = assocPut s.records i (openedRecord s e) := rfl
@[simp] theorem State.openEpoch_freePages (s : State) (i e : Nat) : (s.openEpoch i e).freePages = s.freePages := rfl
@[simp] theorem State.openEpoch_memory (s : State) (i e : Nat) : (s.openEpoch i e).memory = s.memory := rfl
@[simp] theorem State.openEpoch_closedQueue (s : State) (i e : Nat) : (s.openEpoch i e).closedQueue = s.closedQueue := rfl
@[simp] theorem State.openEpoch_emitter (s : State) (i e : Nat) : (s.openEpoch i e).emitter = s.emitter := rfl
@[simp] theorem State.openEpoch_deferredExpiries (s : State) (i e : Nat) :
    (s.openEpoch i e).deferredExpiries = s.deferredExpiries := rfl
@[simp] theorem State.openEpoch_hold (s : State) (i e : Nat) : (s.openEpoch i e).hold = s.hold := rfl
@[simp] theorem State.openEpoch_stallTimer (s : State) (i e : Nat) : (s.openEpoch i e).stallTimer = s.stallTimer := rfl
@[simp] theorem State.openEpoch_stallLimit (s : State) (i e : Nat) : (s.openEpoch i e).stallLimit = s.stallLimit := rfl
@[simp] theorem State.openEpoch_answerQueue (s : State) (i e : Nat) : (s.openEpoch i e).answerQueue = s.answerQueue := rfl
@[simp] theorem State.openEpoch_noticeSlot (s : State) (i e : Nat) : (s.openEpoch i e).noticeSlot = s.noticeSlot := rfl
@[simp] theorem State.openEpoch_nextData (s : State) (i e : Nat) : (s.openEpoch i e).nextData = s.nextData := rfl
@[simp] theorem State.openEpoch_transmitting (s : State) (i e : Nat) : (s.openEpoch i e).transmitting = s.transmitting := rfl
@[simp] theorem State.openEpoch_chain (s : State) (i e : Nat) : (s.openEpoch i e).chain = s.chain := rfl
@[simp] theorem State.openEpoch_inbound (s : State) (i e : Nat) : (s.openEpoch i e).inbound = s.inbound := rfl
@[simp] theorem State.openEpoch_agent (s : State) (i e : Nat) : (s.openEpoch i e).agent = s.agent := rfl
@[simp] theorem State.openEpoch_flags (s : State) (i e : Nat) : (s.openEpoch i e).flags = s.flags := rfl
@[simp] theorem State.openEpoch_noticeMask (s : State) (i e : Nat) : (s.openEpoch i e).noticeMask = s.noticeMask := rfl
@[simp] theorem State.openEpoch_globals (s : State) (i e : Nat) : (s.openEpoch i e).globals = s.globals := rfl

@[simp] theorem State.becomeIdle_pending (s : State) : (s.becomeIdle).pending = s.pending := rfl
@[simp] theorem State.becomeIdle_quantum (s : State) : (s.becomeIdle).quantum = s.quantum := rfl
@[simp] theorem State.becomeIdle_ties (s : State) : (s.becomeIdle).ties = s.ties := rfl
@[simp] theorem State.becomeIdle_unitAddress (s : State) : (s.becomeIdle).unitAddress = s.unitAddress := rfl
@[simp] theorem State.becomeIdle_portA (s : State) : (s.becomeIdle).portA = s.portA := rfl
@[simp] theorem State.becomeIdle_portB (s : State) : (s.becomeIdle).portB = s.portB := rfl
@[simp] theorem State.becomeIdle_linkLossTime (s : State) : (s.becomeIdle).linkLossTime = s.linkLossTime := rfl
@[simp] theorem State.becomeIdle_nextPort (s : State) : (s.becomeIdle).nextPort = s.nextPort := rfl
@[simp] theorem State.becomeIdle_inHand (s : State) : (s.becomeIdle).inHand = s.inHand := rfl
@[simp] theorem State.becomeIdle_map (s : State) : (s.becomeIdle).map = s.map := rfl
@[simp] theorem State.becomeIdle_stations (s : State) : (s.becomeIdle).stations = s.stations := rfl
@[simp] theorem State.becomeIdle_ref (s : State) : (s.becomeIdle).ref = s.ref := rfl
@[simp] theorem State.becomeIdle_plan (s : State) : (s.becomeIdle).plan = s.plan := rfl
@[simp] theorem State.becomeIdle_store (s : State) : (s.becomeIdle).store = .idle := rfl
@[simp] theorem State.becomeIdle_rememberedStarved (s : State) : (s.becomeIdle).rememberedStarved = false := rfl
@[simp] theorem State.becomeIdle_failureSignal (s : State) : (s.becomeIdle).failureSignal = s.failureSignal := rfl
@[simp] theorem State.becomeIdle_eLo (s : State) : (s.becomeIdle).eLo = none := rfl
@[simp] theorem State.becomeIdle_pendingSkip (s : State) : (s.becomeIdle).pendingSkip = 0 := rfl
@[simp] theorem State.becomeIdle_records (s : State) : (s.becomeIdle).records = s.records := rfl
@[simp] theorem State.becomeIdle_freePages (s : State) : (s.becomeIdle).freePages = s.freePages := rfl
@[simp] theorem State.becomeIdle_memory (s : State) : (s.becomeIdle).memory = s.memory := rfl
@[simp] theorem State.becomeIdle_closedQueue (s : State) : (s.becomeIdle).closedQueue = s.closedQueue := rfl
@[simp] theorem State.becomeIdle_emitter (s : State) : (s.becomeIdle).emitter = s.emitter := rfl
@[simp] theorem State.becomeIdle_deferredExpiries (s : State) : (s.becomeIdle).deferredExpiries = s.deferredExpiries := rfl
@[simp] theorem State.becomeIdle_hold (s : State) : (s.becomeIdle).hold = s.hold := rfl
@[simp] theorem State.becomeIdle_stallTimer (s : State) : (s.becomeIdle).stallTimer = s.stallTimer := rfl
@[simp] theorem State.becomeIdle_stallLimit (s : State) : (s.becomeIdle).stallLimit = s.stallLimit := rfl
@[simp] theorem State.becomeIdle_answerQueue (s : State) : (s.becomeIdle).answerQueue = s.answerQueue := rfl
@[simp] theorem State.becomeIdle_noticeSlot (s : State) : (s.becomeIdle).noticeSlot = s.noticeSlot := rfl
@[simp] theorem State.becomeIdle_nextData (s : State) : (s.becomeIdle).nextData = s.nextData := rfl
@[simp] theorem State.becomeIdle_transmitting (s : State) : (s.becomeIdle).transmitting = s.transmitting := rfl
@[simp] theorem State.becomeIdle_chain (s : State) : (s.becomeIdle).chain = s.chain := rfl
@[simp] theorem State.becomeIdle_inbound (s : State) : (s.becomeIdle).inbound = s.inbound := rfl
@[simp] theorem State.becomeIdle_agent (s : State) : (s.becomeIdle).agent = s.agent := rfl
@[simp] theorem State.becomeIdle_flags (s : State) : (s.becomeIdle).flags = s.flags := rfl
@[simp] theorem State.becomeIdle_noticeMask (s : State) : (s.becomeIdle).noticeMask = s.noticeMask := rfl
@[simp] theorem State.becomeIdle_globals (s : State) : (s.becomeIdle).globals = s.globals := rfl

@[simp] theorem State.suspend_pending (s : State) : (s.suspend).pending = s.pending := rfl
@[simp] theorem State.suspend_quantum (s : State) : (s.suspend).quantum = s.quantum := rfl
@[simp] theorem State.suspend_ties (s : State) : (s.suspend).ties = s.ties := rfl
@[simp] theorem State.suspend_unitAddress (s : State) : (s.suspend).unitAddress = s.unitAddress := rfl
@[simp] theorem State.suspend_portA (s : State) : (s.suspend).portA = s.portA := rfl
@[simp] theorem State.suspend_portB (s : State) : (s.suspend).portB = s.portB := rfl
@[simp] theorem State.suspend_linkLossTime (s : State) : (s.suspend).linkLossTime = s.linkLossTime := rfl
@[simp] theorem State.suspend_nextPort (s : State) : (s.suspend).nextPort = s.nextPort := rfl
@[simp] theorem State.suspend_inHand (s : State) : (s.suspend).inHand = s.inHand := rfl
@[simp] theorem State.suspend_map (s : State) : (s.suspend).map = s.map := rfl
@[simp] theorem State.suspend_stations (s : State) : (s.suspend).stations = s.stations := rfl
@[simp] theorem State.suspend_ref (s : State) : (s.suspend).ref = s.ref := rfl
@[simp] theorem State.suspend_plan (s : State) : (s.suspend).plan = s.plan := rfl
@[simp] theorem State.suspend_store (s : State) : (s.suspend).store = .suspended := rfl
@[simp] theorem State.suspend_rememberedStarved (s : State) : (s.suspend).rememberedStarved = decide (s.store = .starved) := rfl
@[simp] theorem State.suspend_failureSignal (s : State) : (s.suspend).failureSignal = s.failureSignal := rfl
@[simp] theorem State.suspend_eLo (s : State) : (s.suspend).eLo = s.eLo := rfl
@[simp] theorem State.suspend_pendingSkip (s : State) : (s.suspend).pendingSkip = s.pendingSkip := rfl
@[simp] theorem State.suspend_records (s : State) : (s.suspend).records = s.records := rfl
@[simp] theorem State.suspend_freePages (s : State) : (s.suspend).freePages = s.freePages := rfl
@[simp] theorem State.suspend_memory (s : State) : (s.suspend).memory = s.memory := rfl
@[simp] theorem State.suspend_closedQueue (s : State) : (s.suspend).closedQueue = s.closedQueue := rfl
@[simp] theorem State.suspend_emitter (s : State) : (s.suspend).emitter = s.emitter := rfl
@[simp] theorem State.suspend_deferredExpiries (s : State) : (s.suspend).deferredExpiries = s.deferredExpiries := rfl
@[simp] theorem State.suspend_hold (s : State) : (s.suspend).hold = s.hold := rfl
@[simp] theorem State.suspend_stallTimer (s : State) : (s.suspend).stallTimer = s.stallTimer := rfl
@[simp] theorem State.suspend_stallLimit (s : State) : (s.suspend).stallLimit = s.stallLimit := rfl
@[simp] theorem State.suspend_answerQueue (s : State) : (s.suspend).answerQueue = s.answerQueue := rfl
@[simp] theorem State.suspend_noticeSlot (s : State) : (s.suspend).noticeSlot = s.noticeSlot := rfl
@[simp] theorem State.suspend_nextData (s : State) : (s.suspend).nextData = s.nextData := rfl
@[simp] theorem State.suspend_transmitting (s : State) : (s.suspend).transmitting = s.transmitting := rfl
@[simp] theorem State.suspend_chain (s : State) : (s.suspend).chain = s.chain := rfl
@[simp] theorem State.suspend_inbound (s : State) : (s.suspend).inbound = s.inbound := rfl
@[simp] theorem State.suspend_agent (s : State) : (s.suspend).agent = s.agent := rfl
@[simp] theorem State.suspend_flags (s : State) : (s.suspend).flags = s.flags := rfl
@[simp] theorem State.suspend_noticeMask (s : State) : (s.suspend).noticeMask = s.noticeMask := rfl
@[simp] theorem State.suspend_globals (s : State) : (s.suspend).globals = s.globals := rfl

@[simp] theorem State.placeAnswer_pending (s : State) (a : List Byte) : (s.placeAnswer a).pending = s.pending := rfl
@[simp] theorem State.placeAnswer_quantum (s : State) (a : List Byte) : (s.placeAnswer a).quantum = s.quantum := rfl
@[simp] theorem State.placeAnswer_ties (s : State) (a : List Byte) : (s.placeAnswer a).ties = s.ties := rfl
@[simp] theorem State.placeAnswer_unitAddress (s : State) (a : List Byte) : (s.placeAnswer a).unitAddress = s.unitAddress := rfl
@[simp] theorem State.placeAnswer_portA (s : State) (a : List Byte) : (s.placeAnswer a).portA = s.portA := rfl
@[simp] theorem State.placeAnswer_portB (s : State) (a : List Byte) : (s.placeAnswer a).portB = s.portB := rfl
@[simp] theorem State.placeAnswer_linkLossTime (s : State) (a : List Byte) :
    (s.placeAnswer a).linkLossTime = s.linkLossTime := rfl
@[simp] theorem State.placeAnswer_nextPort (s : State) (a : List Byte) : (s.placeAnswer a).nextPort = s.nextPort := rfl
@[simp] theorem State.placeAnswer_inHand (s : State) (a : List Byte) : (s.placeAnswer a).inHand = s.inHand := rfl
@[simp] theorem State.placeAnswer_map (s : State) (a : List Byte) : (s.placeAnswer a).map = s.map := rfl
@[simp] theorem State.placeAnswer_stations (s : State) (a : List Byte) : (s.placeAnswer a).stations = s.stations := rfl
@[simp] theorem State.placeAnswer_ref (s : State) (a : List Byte) : (s.placeAnswer a).ref = s.ref := rfl
@[simp] theorem State.placeAnswer_plan (s : State) (a : List Byte) : (s.placeAnswer a).plan = s.plan := rfl
@[simp] theorem State.placeAnswer_store (s : State) (a : List Byte) : (s.placeAnswer a).store = s.store := rfl
@[simp] theorem State.placeAnswer_rememberedStarved (s : State) (a : List Byte) :
    (s.placeAnswer a).rememberedStarved = s.rememberedStarved := rfl
@[simp] theorem State.placeAnswer_failureSignal (s : State) (a : List Byte) :
    (s.placeAnswer a).failureSignal = s.failureSignal := rfl
@[simp] theorem State.placeAnswer_eLo (s : State) (a : List Byte) : (s.placeAnswer a).eLo = s.eLo := rfl
@[simp] theorem State.placeAnswer_pendingSkip (s : State) (a : List Byte) : (s.placeAnswer a).pendingSkip = s.pendingSkip := rfl
@[simp] theorem State.placeAnswer_records (s : State) (a : List Byte) : (s.placeAnswer a).records = s.records := rfl
@[simp] theorem State.placeAnswer_freePages (s : State) (a : List Byte) : (s.placeAnswer a).freePages = s.freePages := rfl
@[simp] theorem State.placeAnswer_memory (s : State) (a : List Byte) : (s.placeAnswer a).memory = s.memory := rfl
@[simp] theorem State.placeAnswer_closedQueue (s : State) (a : List Byte) : (s.placeAnswer a).closedQueue = s.closedQueue := rfl
@[simp] theorem State.placeAnswer_emitter (s : State) (a : List Byte) : (s.placeAnswer a).emitter = s.emitter := rfl
@[simp] theorem State.placeAnswer_deferredExpiries (s : State) (a : List Byte) :
    (s.placeAnswer a).deferredExpiries = s.deferredExpiries := rfl
@[simp] theorem State.placeAnswer_hold (s : State) (a : List Byte) : (s.placeAnswer a).hold = s.hold := rfl
@[simp] theorem State.placeAnswer_stallTimer (s : State) (a : List Byte) : (s.placeAnswer a).stallTimer = s.stallTimer := rfl
@[simp] theorem State.placeAnswer_stallLimit (s : State) (a : List Byte) : (s.placeAnswer a).stallLimit = s.stallLimit := rfl
@[simp] theorem State.placeAnswer_answerQueue (s : State) (a : List Byte) :
    (s.placeAnswer a).answerQueue = s.answerQueue ++ [a] := rfl
@[simp] theorem State.placeAnswer_noticeSlot (s : State) (a : List Byte) : (s.placeAnswer a).noticeSlot = s.noticeSlot := rfl
@[simp] theorem State.placeAnswer_nextData (s : State) (a : List Byte) : (s.placeAnswer a).nextData = s.nextData := rfl
@[simp] theorem State.placeAnswer_transmitting (s : State) (a : List Byte) :
    (s.placeAnswer a).transmitting = s.transmitting := rfl
@[simp] theorem State.placeAnswer_chain (s : State) (a : List Byte) : (s.placeAnswer a).chain = s.chain := rfl
@[simp] theorem State.placeAnswer_inbound (s : State) (a : List Byte) : (s.placeAnswer a).inbound = s.inbound.tail := rfl
@[simp] theorem State.placeAnswer_agent (s : State) (a : List Byte) :
    (s.placeAnswer a).agent = if s.inbound.tail ≠ [] ∧ Config.answerDepth ≤ (s.answerQueue ++ [a]).length then .waiting else .idle := rfl
@[simp] theorem State.placeAnswer_flags (s : State) (a : List Byte) : (s.placeAnswer a).flags = s.flags := rfl
@[simp] theorem State.placeAnswer_noticeMask (s : State) (a : List Byte) : (s.placeAnswer a).noticeMask = s.noticeMask := rfl
@[simp] theorem State.placeAnswer_globals (s : State) (a : List Byte) : (s.placeAnswer a).globals = s.globals := rfl

@[simp] theorem State.retireAll_pending (s : State) : (s.retireAll).pending = s.pending := rfl
@[simp] theorem State.retireAll_quantum (s : State) : (s.retireAll).quantum = s.quantum := rfl
@[simp] theorem State.retireAll_ties (s : State) : (s.retireAll).ties = s.ties := rfl
@[simp] theorem State.retireAll_unitAddress (s : State) : (s.retireAll).unitAddress = s.unitAddress := rfl
@[simp] theorem State.retireAll_portA (s : State) : (s.retireAll).portA = s.portA := rfl
@[simp] theorem State.retireAll_portB (s : State) : (s.retireAll).portB = s.portB := rfl
@[simp] theorem State.retireAll_linkLossTime (s : State) : (s.retireAll).linkLossTime = s.linkLossTime := rfl
@[simp] theorem State.retireAll_nextPort (s : State) : (s.retireAll).nextPort = s.nextPort := rfl
@[simp] theorem State.retireAll_inHand (s : State) : (s.retireAll).inHand = s.inHand := rfl
@[simp] theorem State.retireAll_map (s : State) : (s.retireAll).map = s.map := rfl
@[simp] theorem State.retireAll_stations (s : State) : (s.retireAll).stations = assocMap retirePrevious s.stations := rfl
@[simp] theorem State.retireAll_ref (s : State) : (s.retireAll).ref = s.ref := rfl
@[simp] theorem State.retireAll_plan (s : State) : (s.retireAll).plan = s.plan := rfl
@[simp] theorem State.retireAll_store (s : State) : (s.retireAll).store = s.store := rfl
@[simp] theorem State.retireAll_rememberedStarved (s : State) : (s.retireAll).rememberedStarved = s.rememberedStarved := rfl
@[simp] theorem State.retireAll_failureSignal (s : State) : (s.retireAll).failureSignal = s.failureSignal := rfl
@[simp] theorem State.retireAll_eLo (s : State) : (s.retireAll).eLo = s.eLo := rfl
@[simp] theorem State.retireAll_pendingSkip (s : State) : (s.retireAll).pendingSkip = s.pendingSkip := rfl
@[simp] theorem State.retireAll_records (s : State) : (s.retireAll).records = s.records := rfl
@[simp] theorem State.retireAll_freePages (s : State) : (s.retireAll).freePages = s.freePages := rfl
@[simp] theorem State.retireAll_memory (s : State) : (s.retireAll).memory = s.memory := rfl
@[simp] theorem State.retireAll_closedQueue (s : State) : (s.retireAll).closedQueue = s.closedQueue := rfl
@[simp] theorem State.retireAll_emitter (s : State) : (s.retireAll).emitter = s.emitter := rfl
@[simp] theorem State.retireAll_deferredExpiries (s : State) : (s.retireAll).deferredExpiries = s.deferredExpiries := rfl
@[simp] theorem State.retireAll_hold (s : State) : (s.retireAll).hold = s.hold := rfl
@[simp] theorem State.retireAll_stallTimer (s : State) : (s.retireAll).stallTimer = s.stallTimer := rfl
@[simp] theorem State.retireAll_stallLimit (s : State) : (s.retireAll).stallLimit = s.stallLimit := rfl
@[simp] theorem State.retireAll_answerQueue (s : State) : (s.retireAll).answerQueue = s.answerQueue := rfl
@[simp] theorem State.retireAll_noticeSlot (s : State) : (s.retireAll).noticeSlot = s.noticeSlot := rfl
@[simp] theorem State.retireAll_nextData (s : State) : (s.retireAll).nextData = s.nextData := rfl
@[simp] theorem State.retireAll_transmitting (s : State) : (s.retireAll).transmitting = s.transmitting := rfl
@[simp] theorem State.retireAll_chain (s : State) : (s.retireAll).chain = s.chain := rfl
@[simp] theorem State.retireAll_inbound (s : State) : (s.retireAll).inbound = s.inbound := rfl
@[simp] theorem State.retireAll_agent (s : State) : (s.retireAll).agent = s.agent := rfl
@[simp] theorem State.retireAll_flags (s : State) : (s.retireAll).flags = s.flags := rfl
@[simp] theorem State.retireAll_noticeMask (s : State) : (s.retireAll).noticeMask = s.noticeMask := rfl
@[simp] theorem State.retireAll_globals (s : State) : (s.retireAll).globals = s.globals := rfl

@[simp] theorem State.retireBelow_pending (s : State) (lo : Nat) : (s.retireBelow lo).pending = s.pending := rfl
@[simp] theorem State.retireBelow_quantum (s : State) (lo : Nat) : (s.retireBelow lo).quantum = s.quantum := rfl
@[simp] theorem State.retireBelow_ties (s : State) (lo : Nat) : (s.retireBelow lo).ties = s.ties := rfl
@[simp] theorem State.retireBelow_unitAddress (s : State) (lo : Nat) : (s.retireBelow lo).unitAddress = s.unitAddress := rfl
@[simp] theorem State.retireBelow_portA (s : State) (lo : Nat) : (s.retireBelow lo).portA = s.portA := rfl
@[simp] theorem State.retireBelow_portB (s : State) (lo : Nat) : (s.retireBelow lo).portB = s.portB := rfl
@[simp] theorem State.retireBelow_linkLossTime (s : State) (lo : Nat) : (s.retireBelow lo).linkLossTime = s.linkLossTime := rfl
@[simp] theorem State.retireBelow_nextPort (s : State) (lo : Nat) : (s.retireBelow lo).nextPort = s.nextPort := rfl
@[simp] theorem State.retireBelow_inHand (s : State) (lo : Nat) : (s.retireBelow lo).inHand = s.inHand := rfl
@[simp] theorem State.retireBelow_map (s : State) (lo : Nat) : (s.retireBelow lo).map = s.map := rfl
@[simp] theorem State.retireBelow_stations (s : State) (lo : Nat) :
    (s.retireBelow lo).stations = assocMap (Machine.retireBelow lo) s.stations := rfl
@[simp] theorem State.retireBelow_ref (s : State) (lo : Nat) : (s.retireBelow lo).ref = s.ref := rfl
@[simp] theorem State.retireBelow_plan (s : State) (lo : Nat) : (s.retireBelow lo).plan = s.plan := rfl
@[simp] theorem State.retireBelow_store (s : State) (lo : Nat) : (s.retireBelow lo).store = s.store := rfl
@[simp] theorem State.retireBelow_rememberedStarved (s : State) (lo : Nat) :
    (s.retireBelow lo).rememberedStarved = s.rememberedStarved := rfl
@[simp] theorem State.retireBelow_failureSignal (s : State) (lo : Nat) :
    (s.retireBelow lo).failureSignal = s.failureSignal := rfl
@[simp] theorem State.retireBelow_eLo (s : State) (lo : Nat) : (s.retireBelow lo).eLo = s.eLo := rfl
@[simp] theorem State.retireBelow_pendingSkip (s : State) (lo : Nat) : (s.retireBelow lo).pendingSkip = s.pendingSkip := rfl
@[simp] theorem State.retireBelow_records (s : State) (lo : Nat) : (s.retireBelow lo).records = s.records := rfl
@[simp] theorem State.retireBelow_freePages (s : State) (lo : Nat) : (s.retireBelow lo).freePages = s.freePages := rfl
@[simp] theorem State.retireBelow_memory (s : State) (lo : Nat) : (s.retireBelow lo).memory = s.memory := rfl
@[simp] theorem State.retireBelow_closedQueue (s : State) (lo : Nat) : (s.retireBelow lo).closedQueue = s.closedQueue := rfl
@[simp] theorem State.retireBelow_emitter (s : State) (lo : Nat) : (s.retireBelow lo).emitter = s.emitter := rfl
@[simp] theorem State.retireBelow_deferredExpiries (s : State) (lo : Nat) :
    (s.retireBelow lo).deferredExpiries = s.deferredExpiries := rfl
@[simp] theorem State.retireBelow_hold (s : State) (lo : Nat) : (s.retireBelow lo).hold = s.hold := rfl
@[simp] theorem State.retireBelow_stallTimer (s : State) (lo : Nat) : (s.retireBelow lo).stallTimer = s.stallTimer := rfl
@[simp] theorem State.retireBelow_stallLimit (s : State) (lo : Nat) : (s.retireBelow lo).stallLimit = s.stallLimit := rfl
@[simp] theorem State.retireBelow_answerQueue (s : State) (lo : Nat) : (s.retireBelow lo).answerQueue = s.answerQueue := rfl
@[simp] theorem State.retireBelow_noticeSlot (s : State) (lo : Nat) : (s.retireBelow lo).noticeSlot = s.noticeSlot := rfl
@[simp] theorem State.retireBelow_nextData (s : State) (lo : Nat) : (s.retireBelow lo).nextData = s.nextData := rfl
@[simp] theorem State.retireBelow_transmitting (s : State) (lo : Nat) : (s.retireBelow lo).transmitting = s.transmitting := rfl
@[simp] theorem State.retireBelow_chain (s : State) (lo : Nat) : (s.retireBelow lo).chain = s.chain := rfl
@[simp] theorem State.retireBelow_inbound (s : State) (lo : Nat) : (s.retireBelow lo).inbound = s.inbound := rfl
@[simp] theorem State.retireBelow_agent (s : State) (lo : Nat) : (s.retireBelow lo).agent = s.agent := rfl
@[simp] theorem State.retireBelow_flags (s : State) (lo : Nat) : (s.retireBelow lo).flags = s.flags := rfl
@[simp] theorem State.retireBelow_noticeMask (s : State) (lo : Nat) : (s.retireBelow lo).noticeMask = s.noticeMask := rfl
@[simp] theorem State.retireBelow_globals (s : State) (lo : Nat) : (s.retireBelow lo).globals = s.globals := rfl

@[simp] theorem State.setTrunk_pending (s : State) (p : Port) (t : TrunkPort) :
    (s.setTrunk p t).pending = s.pending := by cases p <;> rfl
@[simp] theorem State.setTrunk_quantum (s : State) (p : Port) (t : TrunkPort) :
    (s.setTrunk p t).quantum = s.quantum := by cases p <;> rfl
@[simp] theorem State.setTrunk_ties (s : State) (p : Port) (t : TrunkPort) :
    (s.setTrunk p t).ties = s.ties := by cases p <;> rfl
@[simp] theorem State.setTrunk_unitAddress (s : State) (p : Port) (t : TrunkPort) :
    (s.setTrunk p t).unitAddress = s.unitAddress := by cases p <;> rfl
@[simp] theorem State.setTrunk_linkLossTime (s : State) (p : Port) (t : TrunkPort) :
    (s.setTrunk p t).linkLossTime = s.linkLossTime := by cases p <;> rfl
@[simp] theorem State.setTrunk_nextPort (s : State) (p : Port) (t : TrunkPort) :
    (s.setTrunk p t).nextPort = s.nextPort := by cases p <;> rfl
@[simp] theorem State.setTrunk_inHand (s : State) (p : Port) (t : TrunkPort) :
    (s.setTrunk p t).inHand = s.inHand := by cases p <;> rfl
@[simp] theorem State.setTrunk_map (s : State) (p : Port) (t : TrunkPort) : (s.setTrunk p t).map = s.map := by cases p <;> rfl
@[simp] theorem State.setTrunk_stations (s : State) (p : Port) (t : TrunkPort) :
    (s.setTrunk p t).stations = s.stations := by cases p <;> rfl
@[simp] theorem State.setTrunk_ref (s : State) (p : Port) (t : TrunkPort) : (s.setTrunk p t).ref = s.ref := by cases p <;> rfl
@[simp] theorem State.setTrunk_plan (s : State) (p : Port) (t : TrunkPort) :
    (s.setTrunk p t).plan = s.plan := by cases p <;> rfl
@[simp] theorem State.setTrunk_store (s : State) (p : Port) (t : TrunkPort) :
    (s.setTrunk p t).store = s.store := by cases p <;> rfl
@[simp] theorem State.setTrunk_rememberedStarved (s : State) (p : Port) (t : TrunkPort) :
    (s.setTrunk p t).rememberedStarved = s.rememberedStarved := by cases p <;> rfl
@[simp] theorem State.setTrunk_failureSignal (s : State) (p : Port) (t : TrunkPort) :
    (s.setTrunk p t).failureSignal = s.failureSignal := by cases p <;> rfl
@[simp] theorem State.setTrunk_eLo (s : State) (p : Port) (t : TrunkPort) : (s.setTrunk p t).eLo = s.eLo := by cases p <;> rfl
@[simp] theorem State.setTrunk_pendingSkip (s : State) (p : Port) (t : TrunkPort) :
    (s.setTrunk p t).pendingSkip = s.pendingSkip := by cases p <;> rfl
@[simp] theorem State.setTrunk_records (s : State) (p : Port) (t : TrunkPort) :
    (s.setTrunk p t).records = s.records := by cases p <;> rfl
@[simp] theorem State.setTrunk_freePages (s : State) (p : Port) (t : TrunkPort) :
    (s.setTrunk p t).freePages = s.freePages := by cases p <;> rfl
@[simp] theorem State.setTrunk_memory (s : State) (p : Port) (t : TrunkPort) :
    (s.setTrunk p t).memory = s.memory := by cases p <;> rfl
@[simp] theorem State.setTrunk_closedQueue (s : State) (p : Port) (t : TrunkPort) :
    (s.setTrunk p t).closedQueue = s.closedQueue := by cases p <;> rfl
@[simp] theorem State.setTrunk_emitter (s : State) (p : Port) (t : TrunkPort) :
    (s.setTrunk p t).emitter = s.emitter := by cases p <;> rfl
@[simp] theorem State.setTrunk_deferredExpiries (s : State) (p : Port) (t : TrunkPort) :
    (s.setTrunk p t).deferredExpiries = s.deferredExpiries := by cases p <;> rfl
@[simp] theorem State.setTrunk_hold (s : State) (p : Port) (t : TrunkPort) :
    (s.setTrunk p t).hold = s.hold := by cases p <;> rfl
@[simp] theorem State.setTrunk_stallTimer (s : State) (p : Port) (t : TrunkPort) :
    (s.setTrunk p t).stallTimer = s.stallTimer := by cases p <;> rfl
@[simp] theorem State.setTrunk_stallLimit (s : State) (p : Port) (t : TrunkPort) :
    (s.setTrunk p t).stallLimit = s.stallLimit := by cases p <;> rfl
@[simp] theorem State.setTrunk_answerQueue (s : State) (p : Port) (t : TrunkPort) :
    (s.setTrunk p t).answerQueue = s.answerQueue := by cases p <;> rfl
@[simp] theorem State.setTrunk_noticeSlot (s : State) (p : Port) (t : TrunkPort) :
    (s.setTrunk p t).noticeSlot = s.noticeSlot := by cases p <;> rfl
@[simp] theorem State.setTrunk_nextData (s : State) (p : Port) (t : TrunkPort) :
    (s.setTrunk p t).nextData = s.nextData := by cases p <;> rfl
@[simp] theorem State.setTrunk_transmitting (s : State) (p : Port) (t : TrunkPort) :
    (s.setTrunk p t).transmitting = s.transmitting := by cases p <;> rfl
@[simp] theorem State.setTrunk_chain (s : State) (p : Port) (t : TrunkPort) :
    (s.setTrunk p t).chain = s.chain := by cases p <;> rfl
@[simp] theorem State.setTrunk_inbound (s : State) (p : Port) (t : TrunkPort) :
    (s.setTrunk p t).inbound = s.inbound := by cases p <;> rfl
@[simp] theorem State.setTrunk_agent (s : State) (p : Port) (t : TrunkPort) :
    (s.setTrunk p t).agent = s.agent := by cases p <;> rfl
@[simp] theorem State.setTrunk_flags (s : State) (p : Port) (t : TrunkPort) :
    (s.setTrunk p t).flags = s.flags := by cases p <;> rfl
@[simp] theorem State.setTrunk_noticeMask (s : State) (p : Port) (t : TrunkPort) :
    (s.setTrunk p t).noticeMask = s.noticeMask := by cases p <;> rfl
@[simp] theorem State.setTrunk_globals (s : State) (p : Port) (t : TrunkPort) :
    (s.setTrunk p t).globals = s.globals := by cases p <;> rfl

@[simp] theorem State.raise_pending (s : State) (f : EventFlag) :
    (s.raise f).pending = s.pending := by unfold State.raise; split <;> rfl
@[simp] theorem State.raise_quantum (s : State) (f : EventFlag) :
    (s.raise f).quantum = s.quantum := by unfold State.raise; split <;> rfl
@[simp] theorem State.raise_ties (s : State) (f : EventFlag) : (s.raise f).ties = s.ties := by unfold State.raise; split <;> rfl
@[simp] theorem State.raise_unitAddress (s : State) (f : EventFlag) :
    (s.raise f).unitAddress = s.unitAddress := by unfold State.raise; split <;> rfl
@[simp] theorem State.raise_portA (s : State) (f : EventFlag) :
    (s.raise f).portA = s.portA := by unfold State.raise; split <;> rfl
@[simp] theorem State.raise_portB (s : State) (f : EventFlag) :
    (s.raise f).portB = s.portB := by unfold State.raise; split <;> rfl
@[simp] theorem State.raise_linkLossTime (s : State) (f : EventFlag) :
    (s.raise f).linkLossTime = s.linkLossTime := by unfold State.raise; split <;> rfl
@[simp] theorem State.raise_nextPort (s : State) (f : EventFlag) :
    (s.raise f).nextPort = s.nextPort := by unfold State.raise; split <;> rfl
@[simp] theorem State.raise_inHand (s : State) (f : EventFlag) :
    (s.raise f).inHand = s.inHand := by unfold State.raise; split <;> rfl
@[simp] theorem State.raise_map (s : State) (f : EventFlag) : (s.raise f).map = s.map := by unfold State.raise; split <;> rfl
@[simp] theorem State.raise_stations (s : State) (f : EventFlag) :
    (s.raise f).stations = s.stations := by unfold State.raise; split <;> rfl
@[simp] theorem State.raise_ref (s : State) (f : EventFlag) : (s.raise f).ref = s.ref := by unfold State.raise; split <;> rfl
@[simp] theorem State.raise_plan (s : State) (f : EventFlag) : (s.raise f).plan = s.plan := by unfold State.raise; split <;> rfl
@[simp] theorem State.raise_store (s : State) (f : EventFlag) :
    (s.raise f).store = s.store := by unfold State.raise; split <;> rfl
@[simp] theorem State.raise_rememberedStarved (s : State) (f : EventFlag) :
    (s.raise f).rememberedStarved = s.rememberedStarved := by unfold State.raise; split <;> rfl
@[simp] theorem State.raise_failureSignal (s : State) (f : EventFlag) :
    (s.raise f).failureSignal = s.failureSignal := by unfold State.raise; split <;> rfl
@[simp] theorem State.raise_eLo (s : State) (f : EventFlag) : (s.raise f).eLo = s.eLo := by unfold State.raise; split <;> rfl
@[simp] theorem State.raise_pendingSkip (s : State) (f : EventFlag) :
    (s.raise f).pendingSkip = s.pendingSkip := by unfold State.raise; split <;> rfl
@[simp] theorem State.raise_records (s : State) (f : EventFlag) :
    (s.raise f).records = s.records := by unfold State.raise; split <;> rfl
@[simp] theorem State.raise_freePages (s : State) (f : EventFlag) :
    (s.raise f).freePages = s.freePages := by unfold State.raise; split <;> rfl
@[simp] theorem State.raise_memory (s : State) (f : EventFlag) :
    (s.raise f).memory = s.memory := by unfold State.raise; split <;> rfl
@[simp] theorem State.raise_closedQueue (s : State) (f : EventFlag) :
    (s.raise f).closedQueue = s.closedQueue := by unfold State.raise; split <;> rfl
@[simp] theorem State.raise_emitter (s : State) (f : EventFlag) :
    (s.raise f).emitter = s.emitter := by unfold State.raise; split <;> rfl
@[simp] theorem State.raise_deferredExpiries (s : State) (f : EventFlag) :
    (s.raise f).deferredExpiries = s.deferredExpiries := by unfold State.raise; split <;> rfl
@[simp] theorem State.raise_hold (s : State) (f : EventFlag) : (s.raise f).hold = s.hold := by unfold State.raise; split <;> rfl
@[simp] theorem State.raise_stallTimer (s : State) (f : EventFlag) :
    (s.raise f).stallTimer = s.stallTimer := by unfold State.raise; split <;> rfl
@[simp] theorem State.raise_stallLimit (s : State) (f : EventFlag) :
    (s.raise f).stallLimit = s.stallLimit := by unfold State.raise; split <;> rfl
@[simp] theorem State.raise_answerQueue (s : State) (f : EventFlag) :
    (s.raise f).answerQueue = s.answerQueue := by unfold State.raise; split <;> rfl
@[simp] theorem State.raise_nextData (s : State) (f : EventFlag) :
    (s.raise f).nextData = s.nextData := by unfold State.raise; split <;> rfl
@[simp] theorem State.raise_transmitting (s : State) (f : EventFlag) :
    (s.raise f).transmitting = s.transmitting := by unfold State.raise; split <;> rfl
@[simp] theorem State.raise_chain (s : State) (f : EventFlag) :
    (s.raise f).chain = s.chain := by unfold State.raise; split <;> rfl
@[simp] theorem State.raise_inbound (s : State) (f : EventFlag) :
    (s.raise f).inbound = s.inbound := by unfold State.raise; split <;> rfl
@[simp] theorem State.raise_agent (s : State) (f : EventFlag) :
    (s.raise f).agent = s.agent := by unfold State.raise; split <;> rfl
@[simp] theorem State.raise_noticeMask (s : State) (f : EventFlag) :
    (s.raise f).noticeMask = s.noticeMask := by unfold State.raise; split <;> rfl
@[simp] theorem State.raise_globals (s : State) (f : EventFlag) :
    (s.raise f).globals = s.globals := by unfold State.raise; split <;> rfl

@[simp] theorem State.withhold_pending (s : State) :
    (s.withhold).pending = s.pending := by unfold State.withhold; split <;> (try split) <;> simp_all
@[simp] theorem State.withhold_quantum (s : State) :
    (s.withhold).quantum = s.quantum := by unfold State.withhold; split <;> (try split) <;> simp_all
@[simp] theorem State.withhold_ties (s : State) :
    (s.withhold).ties = s.ties := by unfold State.withhold; split <;> (try split) <;> simp_all
@[simp] theorem State.withhold_unitAddress (s : State) :
    (s.withhold).unitAddress = s.unitAddress := by unfold State.withhold; split <;> (try split) <;> simp_all
@[simp] theorem State.withhold_portA (s : State) :
    (s.withhold).portA = s.portA := by unfold State.withhold; split <;> (try split) <;> simp_all
@[simp] theorem State.withhold_portB (s : State) :
    (s.withhold).portB = s.portB := by unfold State.withhold; split <;> (try split) <;> simp_all
@[simp] theorem State.withhold_linkLossTime (s : State) :
    (s.withhold).linkLossTime = s.linkLossTime := by unfold State.withhold; split <;> (try split) <;> simp_all
@[simp] theorem State.withhold_nextPort (s : State) :
    (s.withhold).nextPort = s.nextPort := by unfold State.withhold; split <;> (try split) <;> simp_all
@[simp] theorem State.withhold_inHand (s : State) :
    (s.withhold).inHand = s.inHand := by unfold State.withhold; split <;> (try split) <;> simp_all
@[simp] theorem State.withhold_map (s : State) :
    (s.withhold).map = s.map := by unfold State.withhold; split <;> (try split) <;> simp_all
@[simp] theorem State.withhold_stations (s : State) :
    (s.withhold).stations = s.stations := by unfold State.withhold; split <;> (try split) <;> simp_all
@[simp] theorem State.withhold_ref (s : State) :
    (s.withhold).ref = s.ref := by unfold State.withhold; split <;> (try split) <;> simp_all
@[simp] theorem State.withhold_plan (s : State) :
    (s.withhold).plan = s.plan := by unfold State.withhold; split <;> (try split) <;> simp_all
@[simp] theorem State.withhold_failureSignal (s : State) :
    (s.withhold).failureSignal = false := by unfold State.withhold; split <;> (try split) <;> simp_all
@[simp] theorem State.withhold_eLo (s : State) :
    (s.withhold).eLo = s.eLo := by unfold State.withhold; split <;> (try split) <;> simp_all
@[simp] theorem State.withhold_pendingSkip (s : State) :
    (s.withhold).pendingSkip = s.pendingSkip := by unfold State.withhold; split <;> (try split) <;> simp_all
@[simp] theorem State.withhold_records (s : State) :
    (s.withhold).records = s.records := by unfold State.withhold; split <;> (try split) <;> simp_all
@[simp] theorem State.withhold_freePages (s : State) :
    (s.withhold).freePages = s.freePages := by unfold State.withhold; split <;> (try split) <;> simp_all
@[simp] theorem State.withhold_memory (s : State) :
    (s.withhold).memory = s.memory := by unfold State.withhold; split <;> (try split) <;> simp_all
@[simp] theorem State.withhold_closedQueue (s : State) :
    (s.withhold).closedQueue = s.closedQueue := by unfold State.withhold; split <;> (try split) <;> simp_all
@[simp] theorem State.withhold_emitter (s : State) :
    (s.withhold).emitter = s.emitter := by unfold State.withhold; split <;> (try split) <;> simp_all
@[simp] theorem State.withhold_deferredExpiries (s : State) :
    (s.withhold).deferredExpiries = s.deferredExpiries := by unfold State.withhold; split <;> (try split) <;> simp_all
@[simp] theorem State.withhold_hold (s : State) :
    (s.withhold).hold = s.hold := by unfold State.withhold; split <;> (try split) <;> simp_all
@[simp] theorem State.withhold_stallTimer (s : State) :
    (s.withhold).stallTimer = s.stallTimer := by unfold State.withhold; split <;> (try split) <;> simp_all
@[simp] theorem State.withhold_stallLimit (s : State) :
    (s.withhold).stallLimit = s.stallLimit := by unfold State.withhold; split <;> (try split) <;> simp_all
@[simp] theorem State.withhold_answerQueue (s : State) :
    (s.withhold).answerQueue = s.answerQueue := by unfold State.withhold; split <;> (try split) <;> simp_all
@[simp] theorem State.withhold_nextData (s : State) :
    (s.withhold).nextData = s.nextData := by unfold State.withhold; split <;> (try split) <;> simp_all
@[simp] theorem State.withhold_transmitting (s : State) :
    (s.withhold).transmitting = s.transmitting := by unfold State.withhold; split <;> (try split) <;> simp_all
@[simp] theorem State.withhold_chain (s : State) :
    (s.withhold).chain = s.chain := by unfold State.withhold; split <;> (try split) <;> simp_all
@[simp] theorem State.withhold_inbound (s : State) :
    (s.withhold).inbound = s.inbound := by unfold State.withhold; split <;> (try split) <;> simp_all
@[simp] theorem State.withhold_agent (s : State) :
    (s.withhold).agent = s.agent := by unfold State.withhold; split <;> (try split) <;> simp_all
@[simp] theorem State.withhold_noticeMask (s : State) :
    (s.withhold).noticeMask = s.noticeMask := by unfold State.withhold; split <;> (try split) <;> simp_all
@[simp] theorem State.withhold_globals (s : State) :
    (s.withhold).globals = s.globals := by unfold State.withhold; split <;> (try split) <;> simp_all

@[simp] theorem State.setRef_pending (s : State) (r : RefClock) :
    (s.setRef r).pending = s.pending := by unfold State.setRef; split <;> simp
@[simp] theorem State.setRef_quantum (s : State) (r : RefClock) :
    (s.setRef r).quantum = s.quantum := by unfold State.setRef; split <;> simp
@[simp] theorem State.setRef_ties (s : State) (r : RefClock) :
    (s.setRef r).ties = s.ties := by unfold State.setRef; split <;> simp
@[simp] theorem State.setRef_unitAddress (s : State) (r : RefClock) :
    (s.setRef r).unitAddress = s.unitAddress := by unfold State.setRef; split <;> simp
@[simp] theorem State.setRef_portA (s : State) (r : RefClock) :
    (s.setRef r).portA = s.portA := by unfold State.setRef; split <;> simp
@[simp] theorem State.setRef_portB (s : State) (r : RefClock) :
    (s.setRef r).portB = s.portB := by unfold State.setRef; split <;> simp
@[simp] theorem State.setRef_linkLossTime (s : State) (r : RefClock) :
    (s.setRef r).linkLossTime = s.linkLossTime := by unfold State.setRef; split <;> simp
@[simp] theorem State.setRef_nextPort (s : State) (r : RefClock) :
    (s.setRef r).nextPort = s.nextPort := by unfold State.setRef; split <;> simp
@[simp] theorem State.setRef_inHand (s : State) (r : RefClock) :
    (s.setRef r).inHand = s.inHand := by unfold State.setRef; split <;> simp
@[simp] theorem State.setRef_map (s : State) (r : RefClock) : (s.setRef r).map = s.map := by unfold State.setRef; split <;> simp
@[simp] theorem State.setRef_stations (s : State) (r : RefClock) :
    (s.setRef r).stations = s.stations := by unfold State.setRef; split <;> simp
@[simp] theorem State.setRef_ref (s : State) (r : RefClock) : (s.setRef r).ref = r := by unfold State.setRef; split <;> simp
@[simp] theorem State.setRef_plan (s : State) (r : RefClock) :
    (s.setRef r).plan = s.plan := by unfold State.setRef; split <;> simp
@[simp] theorem State.setRef_store (s : State) (r : RefClock) :
    (s.setRef r).store = s.store := by unfold State.setRef; split <;> simp
@[simp] theorem State.setRef_rememberedStarved (s : State) (r : RefClock) :
    (s.setRef r).rememberedStarved = s.rememberedStarved := by unfold State.setRef; split <;> simp
@[simp] theorem State.setRef_failureSignal (s : State) (r : RefClock) :
    (s.setRef r).failureSignal = s.failureSignal := by unfold State.setRef; split <;> simp
@[simp] theorem State.setRef_eLo (s : State) (r : RefClock) : (s.setRef r).eLo = s.eLo := by unfold State.setRef; split <;> simp
@[simp] theorem State.setRef_pendingSkip (s : State) (r : RefClock) :
    (s.setRef r).pendingSkip = s.pendingSkip := by unfold State.setRef; split <;> simp
@[simp] theorem State.setRef_records (s : State) (r : RefClock) :
    (s.setRef r).records = s.records := by unfold State.setRef; split <;> simp
@[simp] theorem State.setRef_freePages (s : State) (r : RefClock) :
    (s.setRef r).freePages = s.freePages := by unfold State.setRef; split <;> simp
@[simp] theorem State.setRef_memory (s : State) (r : RefClock) :
    (s.setRef r).memory = s.memory := by unfold State.setRef; split <;> simp
@[simp] theorem State.setRef_closedQueue (s : State) (r : RefClock) :
    (s.setRef r).closedQueue = s.closedQueue := by unfold State.setRef; split <;> simp
@[simp] theorem State.setRef_emitter (s : State) (r : RefClock) :
    (s.setRef r).emitter = s.emitter := by unfold State.setRef; split <;> simp
@[simp] theorem State.setRef_deferredExpiries (s : State) (r : RefClock) :
    (s.setRef r).deferredExpiries = s.deferredExpiries := by unfold State.setRef; split <;> simp
@[simp] theorem State.setRef_hold (s : State) (r : RefClock) :
    (s.setRef r).hold = s.hold := by unfold State.setRef; split <;> simp
@[simp] theorem State.setRef_stallTimer (s : State) (r : RefClock) :
    (s.setRef r).stallTimer = s.stallTimer := by unfold State.setRef; split <;> simp
@[simp] theorem State.setRef_stallLimit (s : State) (r : RefClock) :
    (s.setRef r).stallLimit = s.stallLimit := by unfold State.setRef; split <;> simp
@[simp] theorem State.setRef_answerQueue (s : State) (r : RefClock) :
    (s.setRef r).answerQueue = s.answerQueue := by unfold State.setRef; split <;> simp
@[simp] theorem State.setRef_nextData (s : State) (r : RefClock) :
    (s.setRef r).nextData = s.nextData := by unfold State.setRef; split <;> simp
@[simp] theorem State.setRef_transmitting (s : State) (r : RefClock) :
    (s.setRef r).transmitting = s.transmitting := by unfold State.setRef; split <;> simp
@[simp] theorem State.setRef_chain (s : State) (r : RefClock) :
    (s.setRef r).chain = s.chain := by unfold State.setRef; split <;> simp
@[simp] theorem State.setRef_inbound (s : State) (r : RefClock) :
    (s.setRef r).inbound = s.inbound := by unfold State.setRef; split <;> simp
@[simp] theorem State.setRef_agent (s : State) (r : RefClock) :
    (s.setRef r).agent = s.agent := by unfold State.setRef; split <;> simp
@[simp] theorem State.setRef_noticeMask (s : State) (r : RefClock) :
    (s.setRef r).noticeMask = s.noticeMask := by unfold State.setRef; split <;> simp
@[simp] theorem State.setRef_globals (s : State) (r : RefClock) :
    (s.setRef r).globals = s.globals := by unfold State.setRef; split <;> simp

@[simp] theorem State.endStarved_pending (s : State) :
    (s.endStarved).pending = s.pending := by unfold State.endStarved; split <;> rfl
@[simp] theorem State.endStarved_quantum (s : State) :
    (s.endStarved).quantum = s.quantum := by unfold State.endStarved; split <;> rfl
@[simp] theorem State.endStarved_ties (s : State) : (s.endStarved).ties = s.ties := by unfold State.endStarved; split <;> rfl
@[simp] theorem State.endStarved_unitAddress (s : State) :
    (s.endStarved).unitAddress = s.unitAddress := by unfold State.endStarved; split <;> rfl
@[simp] theorem State.endStarved_portA (s : State) : (s.endStarved).portA = s.portA := by unfold State.endStarved; split <;> rfl
@[simp] theorem State.endStarved_portB (s : State) : (s.endStarved).portB = s.portB := by unfold State.endStarved; split <;> rfl
@[simp] theorem State.endStarved_linkLossTime (s : State) :
    (s.endStarved).linkLossTime = s.linkLossTime := by unfold State.endStarved; split <;> rfl
@[simp] theorem State.endStarved_nextPort (s : State) :
    (s.endStarved).nextPort = s.nextPort := by unfold State.endStarved; split <;> rfl
@[simp] theorem State.endStarved_inHand (s : State) :
    (s.endStarved).inHand = s.inHand := by unfold State.endStarved; split <;> rfl
@[simp] theorem State.endStarved_map (s : State) : (s.endStarved).map = s.map := by unfold State.endStarved; split <;> rfl
@[simp] theorem State.endStarved_stations (s : State) :
    (s.endStarved).stations = s.stations := by unfold State.endStarved; split <;> rfl
@[simp] theorem State.endStarved_ref (s : State) : (s.endStarved).ref = s.ref := by unfold State.endStarved; split <;> rfl
@[simp] theorem State.endStarved_plan (s : State) : (s.endStarved).plan = s.plan := by unfold State.endStarved; split <;> rfl
@[simp] theorem State.endStarved_rememberedStarved (s : State) :
    (s.endStarved).rememberedStarved = s.rememberedStarved := by unfold State.endStarved; split <;> rfl
@[simp] theorem State.endStarved_failureSignal (s : State) :
    (s.endStarved).failureSignal = s.failureSignal := by unfold State.endStarved; split <;> rfl
@[simp] theorem State.endStarved_eLo (s : State) : (s.endStarved).eLo = s.eLo := by unfold State.endStarved; split <;> rfl
@[simp] theorem State.endStarved_pendingSkip (s : State) :
    (s.endStarved).pendingSkip = s.pendingSkip := by unfold State.endStarved; split <;> rfl
@[simp] theorem State.endStarved_records (s : State) :
    (s.endStarved).records = s.records := by unfold State.endStarved; split <;> rfl
@[simp] theorem State.endStarved_freePages (s : State) :
    (s.endStarved).freePages = s.freePages := by unfold State.endStarved; split <;> rfl
@[simp] theorem State.endStarved_memory (s : State) :
    (s.endStarved).memory = s.memory := by unfold State.endStarved; split <;> rfl
@[simp] theorem State.endStarved_closedQueue (s : State) :
    (s.endStarved).closedQueue = s.closedQueue := by unfold State.endStarved; split <;> rfl
@[simp] theorem State.endStarved_emitter (s : State) :
    (s.endStarved).emitter = s.emitter := by unfold State.endStarved; split <;> rfl
@[simp] theorem State.endStarved_deferredExpiries (s : State) :
    (s.endStarved).deferredExpiries = s.deferredExpiries := by unfold State.endStarved; split <;> rfl
@[simp] theorem State.endStarved_hold (s : State) : (s.endStarved).hold = s.hold := by unfold State.endStarved; split <;> rfl
@[simp] theorem State.endStarved_stallTimer (s : State) :
    (s.endStarved).stallTimer = s.stallTimer := by unfold State.endStarved; split <;> rfl
@[simp] theorem State.endStarved_stallLimit (s : State) :
    (s.endStarved).stallLimit = s.stallLimit := by unfold State.endStarved; split <;> rfl
@[simp] theorem State.endStarved_answerQueue (s : State) :
    (s.endStarved).answerQueue = s.answerQueue := by unfold State.endStarved; split <;> rfl
@[simp] theorem State.endStarved_noticeSlot (s : State) :
    (s.endStarved).noticeSlot = s.noticeSlot := by unfold State.endStarved; split <;> rfl
@[simp] theorem State.endStarved_nextData (s : State) :
    (s.endStarved).nextData = s.nextData := by unfold State.endStarved; split <;> rfl
@[simp] theorem State.endStarved_transmitting (s : State) :
    (s.endStarved).transmitting = s.transmitting := by unfold State.endStarved; split <;> rfl
@[simp] theorem State.endStarved_chain (s : State) : (s.endStarved).chain = s.chain := by unfold State.endStarved; split <;> rfl
@[simp] theorem State.endStarved_inbound (s : State) :
    (s.endStarved).inbound = s.inbound := by unfold State.endStarved; split <;> rfl
@[simp] theorem State.endStarved_agent (s : State) : (s.endStarved).agent = s.agent := by unfold State.endStarved; split <;> rfl
@[simp] theorem State.endStarved_flags (s : State) : (s.endStarved).flags = s.flags := by unfold State.endStarved; split <;> rfl
@[simp] theorem State.endStarved_noticeMask (s : State) :
    (s.endStarved).noticeMask = s.noticeMask := by unfold State.endStarved; split <;> rfl
@[simp] theorem State.endStarved_globals (s : State) :
    (s.endStarved).globals = s.globals := by unfold State.endStarved; split <;> rfl

@[simp] theorem State.enterStarved_pending (s : State) : (s.enterStarved).pending = s.pending := by simp [State.enterStarved]
@[simp] theorem State.enterStarved_quantum (s : State) : (s.enterStarved).quantum = s.quantum := by simp [State.enterStarved]
@[simp] theorem State.enterStarved_ties (s : State) : (s.enterStarved).ties = s.ties := by simp [State.enterStarved]
@[simp] theorem State.enterStarved_unitAddress (s : State) :
    (s.enterStarved).unitAddress = s.unitAddress := by simp [State.enterStarved]
@[simp] theorem State.enterStarved_portA (s : State) : (s.enterStarved).portA = s.portA := by simp [State.enterStarved]
@[simp] theorem State.enterStarved_portB (s : State) : (s.enterStarved).portB = s.portB := by simp [State.enterStarved]
@[simp] theorem State.enterStarved_linkLossTime (s : State) :
    (s.enterStarved).linkLossTime = s.linkLossTime := by simp [State.enterStarved]
@[simp] theorem State.enterStarved_nextPort (s : State) : (s.enterStarved).nextPort = s.nextPort := by simp [State.enterStarved]
@[simp] theorem State.enterStarved_inHand (s : State) : (s.enterStarved).inHand = s.inHand := by simp [State.enterStarved]
@[simp] theorem State.enterStarved_map (s : State) : (s.enterStarved).map = s.map := by simp [State.enterStarved]
@[simp] theorem State.enterStarved_stations (s : State) : (s.enterStarved).stations = s.stations := by simp [State.enterStarved]
@[simp] theorem State.enterStarved_ref (s : State) : (s.enterStarved).ref = s.ref := by simp [State.enterStarved]
@[simp] theorem State.enterStarved_plan (s : State) : (s.enterStarved).plan = s.plan := by simp [State.enterStarved]
@[simp] theorem State.enterStarved_store (s : State) : (s.enterStarved).store = .starved := by simp [State.enterStarved]
@[simp] theorem State.enterStarved_rememberedStarved (s : State) :
    (s.enterStarved).rememberedStarved = s.rememberedStarved := by simp [State.enterStarved]
@[simp] theorem State.enterStarved_failureSignal (s : State) :
    (s.enterStarved).failureSignal = s.failureSignal := by simp [State.enterStarved]
@[simp] theorem State.enterStarved_eLo (s : State) : (s.enterStarved).eLo = s.eLo := by simp [State.enterStarved]
@[simp] theorem State.enterStarved_pendingSkip (s : State) :
    (s.enterStarved).pendingSkip = s.pendingSkip := by simp [State.enterStarved]
@[simp] theorem State.enterStarved_records (s : State) : (s.enterStarved).records = s.records := by simp [State.enterStarved]
@[simp] theorem State.enterStarved_freePages (s : State) :
    (s.enterStarved).freePages = s.freePages := by simp [State.enterStarved]
@[simp] theorem State.enterStarved_memory (s : State) : (s.enterStarved).memory = s.memory := by simp [State.enterStarved]
@[simp] theorem State.enterStarved_closedQueue (s : State) :
    (s.enterStarved).closedQueue = s.closedQueue := by simp [State.enterStarved]
@[simp] theorem State.enterStarved_emitter (s : State) : (s.enterStarved).emitter = s.emitter := by simp [State.enterStarved]
@[simp] theorem State.enterStarved_deferredExpiries (s : State) :
    (s.enterStarved).deferredExpiries = s.deferredExpiries := by simp [State.enterStarved]
@[simp] theorem State.enterStarved_hold (s : State) : (s.enterStarved).hold = s.hold := by simp [State.enterStarved]
@[simp] theorem State.enterStarved_stallTimer (s : State) :
    (s.enterStarved).stallTimer = s.stallTimer := by simp [State.enterStarved]
@[simp] theorem State.enterStarved_stallLimit (s : State) :
    (s.enterStarved).stallLimit = s.stallLimit := by simp [State.enterStarved]
@[simp] theorem State.enterStarved_answerQueue (s : State) :
    (s.enterStarved).answerQueue = s.answerQueue := by simp [State.enterStarved]
@[simp] theorem State.enterStarved_nextData (s : State) : (s.enterStarved).nextData = s.nextData := by simp [State.enterStarved]
@[simp] theorem State.enterStarved_transmitting (s : State) :
    (s.enterStarved).transmitting = s.transmitting := by simp [State.enterStarved]
@[simp] theorem State.enterStarved_chain (s : State) : (s.enterStarved).chain = s.chain := by simp [State.enterStarved]
@[simp] theorem State.enterStarved_inbound (s : State) : (s.enterStarved).inbound = s.inbound := by simp [State.enterStarved]
@[simp] theorem State.enterStarved_agent (s : State) : (s.enterStarved).agent = s.agent := by simp [State.enterStarved]
@[simp] theorem State.enterStarved_noticeMask (s : State) :
    (s.enterStarved).noticeMask = s.noticeMask := by simp [State.enterStarved]
@[simp] theorem State.enterStarved_globals (s : State) : (s.enterStarved).globals = s.globals := by simp [State.enterStarved]

@[simp] theorem State.modifyStation_pending (s : State) (slot : Nat) (f : Station → Station) :
    (s.modifyStation slot f).pending = s.pending := by unfold State.modifyStation; split <;> rfl
@[simp] theorem State.modifyStation_quantum (s : State) (slot : Nat) (f : Station → Station) :
    (s.modifyStation slot f).quantum = s.quantum := by unfold State.modifyStation; split <;> rfl
@[simp] theorem State.modifyStation_ties (s : State) (slot : Nat) (f : Station → Station) :
    (s.modifyStation slot f).ties = s.ties := by unfold State.modifyStation; split <;> rfl
@[simp] theorem State.modifyStation_unitAddress (s : State) (slot : Nat) (f : Station → Station) :
    (s.modifyStation slot f).unitAddress = s.unitAddress := by unfold State.modifyStation; split <;> rfl
@[simp] theorem State.modifyStation_portA (s : State) (slot : Nat) (f : Station → Station) :
    (s.modifyStation slot f).portA = s.portA := by unfold State.modifyStation; split <;> rfl
@[simp] theorem State.modifyStation_portB (s : State) (slot : Nat) (f : Station → Station) :
    (s.modifyStation slot f).portB = s.portB := by unfold State.modifyStation; split <;> rfl
@[simp] theorem State.modifyStation_linkLossTime (s : State) (slot : Nat) (f : Station → Station) :
    (s.modifyStation slot f).linkLossTime = s.linkLossTime := by unfold State.modifyStation; split <;> rfl
@[simp] theorem State.modifyStation_nextPort (s : State) (slot : Nat) (f : Station → Station) :
    (s.modifyStation slot f).nextPort = s.nextPort := by unfold State.modifyStation; split <;> rfl
@[simp] theorem State.modifyStation_inHand (s : State) (slot : Nat) (f : Station → Station) :
    (s.modifyStation slot f).inHand = s.inHand := by unfold State.modifyStation; split <;> rfl
@[simp] theorem State.modifyStation_map (s : State) (slot : Nat) (f : Station → Station) :
    (s.modifyStation slot f).map = s.map := by unfold State.modifyStation; split <;> rfl
@[simp] theorem State.modifyStation_ref (s : State) (slot : Nat) (f : Station → Station) :
    (s.modifyStation slot f).ref = s.ref := by unfold State.modifyStation; split <;> rfl
@[simp] theorem State.modifyStation_plan (s : State) (slot : Nat) (f : Station → Station) :
    (s.modifyStation slot f).plan = s.plan := by unfold State.modifyStation; split <;> rfl
@[simp] theorem State.modifyStation_store (s : State) (slot : Nat) (f : Station → Station) :
    (s.modifyStation slot f).store = s.store := by unfold State.modifyStation; split <;> rfl
@[simp] theorem State.modifyStation_rememberedStarved (s : State) (slot : Nat) (f : Station → Station) :
    (s.modifyStation slot f).rememberedStarved = s.rememberedStarved := by unfold State.modifyStation; split <;> rfl
@[simp] theorem State.modifyStation_failureSignal (s : State) (slot : Nat) (f : Station → Station) :
    (s.modifyStation slot f).failureSignal = s.failureSignal := by unfold State.modifyStation; split <;> rfl
@[simp] theorem State.modifyStation_eLo (s : State) (slot : Nat) (f : Station → Station) :
    (s.modifyStation slot f).eLo = s.eLo := by unfold State.modifyStation; split <;> rfl
@[simp] theorem State.modifyStation_pendingSkip (s : State) (slot : Nat) (f : Station → Station) :
    (s.modifyStation slot f).pendingSkip = s.pendingSkip := by unfold State.modifyStation; split <;> rfl
@[simp] theorem State.modifyStation_records (s : State) (slot : Nat) (f : Station → Station) :
    (s.modifyStation slot f).records = s.records := by unfold State.modifyStation; split <;> rfl
@[simp] theorem State.modifyStation_freePages (s : State) (slot : Nat) (f : Station → Station) :
    (s.modifyStation slot f).freePages = s.freePages := by unfold State.modifyStation; split <;> rfl
@[simp] theorem State.modifyStation_memory (s : State) (slot : Nat) (f : Station → Station) :
    (s.modifyStation slot f).memory = s.memory := by unfold State.modifyStation; split <;> rfl
@[simp] theorem State.modifyStation_closedQueue (s : State) (slot : Nat) (f : Station → Station) :
    (s.modifyStation slot f).closedQueue = s.closedQueue := by unfold State.modifyStation; split <;> rfl
@[simp] theorem State.modifyStation_emitter (s : State) (slot : Nat) (f : Station → Station) :
    (s.modifyStation slot f).emitter = s.emitter := by unfold State.modifyStation; split <;> rfl
@[simp] theorem State.modifyStation_deferredExpiries (s : State) (slot : Nat) (f : Station → Station) :
    (s.modifyStation slot f).deferredExpiries = s.deferredExpiries := by unfold State.modifyStation; split <;> rfl
@[simp] theorem State.modifyStation_hold (s : State) (slot : Nat) (f : Station → Station) :
    (s.modifyStation slot f).hold = s.hold := by unfold State.modifyStation; split <;> rfl
@[simp] theorem State.modifyStation_stallTimer (s : State) (slot : Nat) (f : Station → Station) :
    (s.modifyStation slot f).stallTimer = s.stallTimer := by unfold State.modifyStation; split <;> rfl
@[simp] theorem State.modifyStation_stallLimit (s : State) (slot : Nat) (f : Station → Station) :
    (s.modifyStation slot f).stallLimit = s.stallLimit := by unfold State.modifyStation; split <;> rfl
@[simp] theorem State.modifyStation_answerQueue (s : State) (slot : Nat) (f : Station → Station) :
    (s.modifyStation slot f).answerQueue = s.answerQueue := by unfold State.modifyStation; split <;> rfl
@[simp] theorem State.modifyStation_noticeSlot (s : State) (slot : Nat) (f : Station → Station) :
    (s.modifyStation slot f).noticeSlot = s.noticeSlot := by unfold State.modifyStation; split <;> rfl
@[simp] theorem State.modifyStation_nextData (s : State) (slot : Nat) (f : Station → Station) :
    (s.modifyStation slot f).nextData = s.nextData := by unfold State.modifyStation; split <;> rfl
@[simp] theorem State.modifyStation_transmitting (s : State) (slot : Nat) (f : Station → Station) :
    (s.modifyStation slot f).transmitting = s.transmitting := by unfold State.modifyStation; split <;> rfl
@[simp] theorem State.modifyStation_chain (s : State) (slot : Nat) (f : Station → Station) :
    (s.modifyStation slot f).chain = s.chain := by unfold State.modifyStation; split <;> rfl
@[simp] theorem State.modifyStation_inbound (s : State) (slot : Nat) (f : Station → Station) :
    (s.modifyStation slot f).inbound = s.inbound := by unfold State.modifyStation; split <;> rfl
@[simp] theorem State.modifyStation_agent (s : State) (slot : Nat) (f : Station → Station) :
    (s.modifyStation slot f).agent = s.agent := by unfold State.modifyStation; split <;> rfl
@[simp] theorem State.modifyStation_flags (s : State) (slot : Nat) (f : Station → Station) :
    (s.modifyStation slot f).flags = s.flags := by unfold State.modifyStation; split <;> rfl
@[simp] theorem State.modifyStation_noticeMask (s : State) (slot : Nat) (f : Station → Station) :
    (s.modifyStation slot f).noticeMask = s.noticeMask := by unfold State.modifyStation; split <;> rfl
@[simp] theorem State.modifyStation_globals (s : State) (slot : Nat) (f : Station → Station) :
    (s.modifyStation slot f).globals = s.globals := by unfold State.modifyStation; split <;> rfl

@[simp] theorem State.trunk_setTrunk_same (s : State) (p : Port) (t : TrunkPort) : (s.setTrunk p t).trunk p = t := by
  cases p <;> rfl

@[simp] theorem State.trunk_setTrunk_other (s : State) (p : Port) (t : TrunkPort) :
    (s.setTrunk p t).trunk (otherPort p) = s.trunk (otherPort p) := by
  cases p <;> rfl

@[simp] theorem State.trunk_raise (s : State) (f : EventFlag) (p : Port) : (s.raise f).trunk p = s.trunk p := by
  cases p <;> simp [State.trunk]

end Sys2Proof.Machine
end

