-- ==== Sys2Proof/Laws/Ops.lean ====
section
/-! SUPPORT. Everything the operations of Machine/Ops.lean and Machine/Flags.lean can do, said once. -/

namespace Sys2Proof.Machine

/-! ## Sparse data by key -/

section
variable {α : Type}

@[simp] theorem assocGet_nil (k : Nat) : assocGet ([] : Assoc α) k = none := rfl

theorem assocGet_put_same (l : Assoc α) (k : Nat) (v : α) : assocGet (assocPut l k v) k = some v := by
  induction l with
  | nil => simp [assocPut, assocGet]
  | cons p t ih =>
    obtain ⟨j, w⟩ := p
    unfold assocPut
    split
    · simp [assocGet]
    · split
      · simp [assocGet]
      · simp_all [assocGet]

theorem assocGet_put_other (l : Assoc α) {k k' : Nat} (v : α) (h : k' ≠ k) :
    assocGet (assocPut l k v) k' = assocGet l k' := by
  induction l with
  | nil => simp [assocPut, assocGet, h]
  | cons p t ih =>
    obtain ⟨j, w⟩ := p
    unfold assocPut
    split
    · simp [assocGet, h]
    · split
      · rename_i h2
        subst h2
        simp [assocGet, h]
      · simp [assocGet, ih]

theorem assocGet_put (l : Assoc α) (k k' : Nat) (v : α) :
    assocGet (assocPut l k v) k' = if k' = k then some v else assocGet l k' := by
  split
  · rename_i h
    rw [h, assocGet_put_same]
  · rename_i h
    exact assocGet_put_other l v h

theorem assocGet_erase (l : Assoc α) (k k' : Nat) :
    assocGet (assocErase l k) k' = if k' = k then none else assocGet l k' := by
  induction l with
  | nil => simp [assocErase]
  | cons p t ih =>
    obtain ⟨j, w⟩ := p
    unfold assocErase
    by_cases h : k = j
    · subst h
      simp only [ite_true, ih, assocGet]
      split <;> rfl
    · simp only [h, ite_false, assocGet, ih]
      by_cases h2 : k' = k
      · subst h2
        simp [h]
      · simp [h2]

theorem assocGet_map (f : α → α) (l : Assoc α) (k : Nat) : assocGet (assocMap f l) k = (assocGet l k).map f := by
  induction l with
  | nil => rfl
  | cons p t ih =>
    obtain ⟨j, w⟩ := p
    simp only [assocMap, assocGet, ih]
    split <;> rfl

theorem mem_of_assocGet {l : Assoc α} {k : Nat} {v : α} (h : assocGet l k = some v) : (k, v) ∈ l := by
  induction l with
  | nil => simp at h
  | cons p t ih =>
    obtain ⟨j, w⟩ := p
    unfold assocGet at h
    split at h
    · simp_all
    · exact List.mem_cons_of_mem _ (ih h)

theorem assocGet_of_mem {l : Assoc α} {k : Nat} {v : α} (hs : assocSorted l = true) (h : (k, v) ∈ l) :
    assocGet l k = some v := by
  induction l with
  | nil => simp at h
  | cons p t ih =>
    obtain ⟨j, w⟩ := p
    simp only [assocSorted, Bool.and_eq_true, List.all_eq_true, decide_eq_true_eq] at hs
    rcases List.mem_cons.1 h with h | h
    · cases h
      simp [assocGet]
    · have hlt := hs.1 _ h
      have : k ≠ j := by
        have := hlt
        simp only at this
        omega
      simp [assocGet, this, ih hs.2 h]

theorem mem_assocPut {l : Assoc α} {k : Nat} {v : α} {p : Nat × α} (h : p ∈ assocPut l k v) : p = (k, v) ∨ p ∈ l := by
  induction l with
  | nil => simpa [assocPut] using h
  | cons q t ih =>
    obtain ⟨j, w⟩ := q
    unfold assocPut at h
    split at h
    · simpa using h
    · split at h
      · rcases List.mem_cons.1 h with h | h
        · exact Or.inl h
        · exact Or.inr (List.mem_cons_of_mem _ h)
      · rcases List.mem_cons.1 h with h | h
        · exact Or.inr (h ▸ List.mem_cons_self)
        · rcases ih h with h | h
          · exact Or.inl h
          · exact Or.inr (List.mem_cons_of_mem _ h)

theorem mem_assocErase {l : Assoc α} {k : Nat} {p : Nat × α} (h : p ∈ assocErase l k) : p ∈ l ∧ p.1 ≠ k := by
  induction l with
  | nil => simp [assocErase] at h
  | cons q t ih =>
    obtain ⟨j, w⟩ := q
    unfold assocErase at h
    split at h
    · exact ⟨List.mem_cons_of_mem _ (ih h).1, (ih h).2⟩
    · rename_i hj
      rcases List.mem_cons.1 h with h | h
      · subst h
        exact ⟨List.mem_cons_self, fun e => hj e.symm⟩
      · exact ⟨List.mem_cons_of_mem _ (ih h).1, (ih h).2⟩

theorem assocSorted_put {l : Assoc α} (k : Nat) (v : α) (h : assocSorted l = true) : assocSorted (assocPut l k v) = true := by
  induction l with
  | nil => rfl
  | cons p t ih =>
    obtain ⟨j, w⟩ := p
    simp only [assocSorted, Bool.and_eq_true, List.all_eq_true, decide_eq_true_eq] at h
    unfold assocPut
    split
    · rename_i hk
      simp only [assocSorted, Bool.and_eq_true, List.all_eq_true, decide_eq_true_eq]
      refine ⟨fun q hq => ?_, h⟩
      rcases List.mem_cons.1 hq with hq | hq
      · subst hq
        exact hk
      · exact Nat.lt_trans hk (h.1 q hq)
    · split
      · rename_i hk
        subst hk
        simp only [assocSorted, Bool.and_eq_true, List.all_eq_true, decide_eq_true_eq]
        exact h
      · rename_i hk1 hk2
        simp only [assocSorted, Bool.and_eq_true, List.all_eq_true, decide_eq_true_eq]
        refine ⟨fun q hq => ?_, ih h.2⟩
        rcases mem_assocPut hq with hq | hq
        · subst hq
          simp only
          omega
        · exact h.1 q hq

theorem assocSorted_erase {l : Assoc α} (k : Nat) (h : assocSorted l = true) : assocSorted (assocErase l k) = true := by
  induction l with
  | nil => rfl
  | cons p t ih =>
    obtain ⟨j, w⟩ := p
    simp only [assocSorted, Bool.and_eq_true, List.all_eq_true, decide_eq_true_eq] at h
    unfold assocErase
    split
    · exact ih h.2
    · simp only [assocSorted, Bool.and_eq_true, List.all_eq_true, decide_eq_true_eq]
      exact ⟨fun q hq => h.1 q (mem_assocErase hq).1, ih h.2⟩

theorem mem_assocMap {f : α → α} {l : Assoc α} {k : Nat} {v : α} : (k, v) ∈ assocMap f l ↔ ∃ w, (k, w) ∈ l ∧ f w = v := by
  induction l with
  | nil => simp [assocMap]
  | cons p t ih =>
    obtain ⟨j, w⟩ := p
    simp only [assocMap, List.mem_cons, Prod.mk.injEq, ih]
    constructor
    · rintro (⟨rfl, rfl⟩ | ⟨u, hu, rfl⟩)
      · exact ⟨w, Or.inl ⟨rfl, rfl⟩, rfl⟩
      · exact ⟨u, Or.inr hu, rfl⟩
    · rintro ⟨u, ⟨rfl, rfl⟩ | hu, rfl⟩
      · exact Or.inl ⟨rfl, rfl⟩
      · exact Or.inr ⟨u, hu, rfl⟩

theorem assocSorted_map {l : Assoc α} (f : α → α) (h : assocSorted l = true) : assocSorted (assocMap f l) = true := by
  induction l with
  | nil => rfl
  | cons p t ih =>
    obtain ⟨j, w⟩ := p
    simp only [assocSorted, Bool.and_eq_true, List.all_eq_true, decide_eq_true_eq] at h
    simp only [assocMap, assocSorted, Bool.and_eq_true, List.all_eq_true, decide_eq_true_eq]
    refine ⟨fun q hq => ?_, ih h.2⟩
    obtain ⟨k, v⟩ := q
    obtain ⟨u, hu, -⟩ := mem_assocMap.1 hq
    exact h.1 (k, u) hu

end

/-! ## Station records -/

theorem station_putStation (s : State) (slot k : Nat) (st : Station) :
    (s.putStation slot st).station k = if k = slot then some st else s.station k :=
  assocGet_put s.stations slot k st

theorem station_modifyStation (s : State) (slot k : Nat) (f : Station → Station) :
    (s.modifyStation slot f).station k = if k = slot then (s.station slot).map f else s.station k := by
  unfold State.modifyStation
  cases h : s.station slot with
  | none =>
    by_cases hk : k = slot
    · subst hk
      simp [h]
    · simp [hk]
  | some st => simp [station_putStation]

@[simp] theorem station_raise (s : State) (f : EventFlag) (k : Nat) : (s.raise f).station k = s.station k := by
  simp [State.station]

/-! ## The Acceptance Path -/

theorem pathFree_iff (s : State) :
    s.pathFree = true ↔ s.inHand = none ∧ s.agent.isHeld = false ∧ s.failureSignal = false := by simp [State.pathFree, and_assoc]

theorem handles_of_empty {s : State} (h : s.inHand = none) (slot : Nat) : s.handles slot = false := by simp [State.handles, h]

/-! ## Event flags -/

theorem raise_of_set {s : State} {f : EventFlag} (h : hasFlag s.flags f = true) : s.raise f = s := by
  simp [State.raise, h]

theorem hasFlag_or_bit (fs : FlagSet) (f : EventFlag) : hasFlag (fs ||| f.bit) f = true := by
  have h : ∀ fs : FlagSet, ((fs ||| f.bit) &&& f.bit) ≠ 0 := by
    intro fs hz
    have hb : (f.bit : FlagSet) = (fs ||| f.bit) &&& f.bit := by
      ext i hi
      simp
      tauto
    rw [hz] at hb
    cases f <;> simp [EventFlag.bit] at hb
  simpa [hasFlag] using h fs

@[simp] theorem hasFlag_raise_same (s : State) (f : EventFlag) : hasFlag (s.raise f).flags f = true := by
  unfold State.raise
  split
  · assumption
  · exact hasFlag_or_bit _ _

/-- A flag set holds a flag when the bit of its position is set. -/
theorem hasFlag_eq_getLsbD (fs : FlagSet) {f : EventFlag} {k : Nat} (hk : k < 12) (h : f.bit = BitVec.twoPow 12 k) :
    hasFlag fs f = fs.getLsbD k := by
  unfold hasFlag
  rw [h, BitVec.and_twoPow]
  cases fs.getLsbD k
  · simp
  · have : BitVec.twoPow 12 k ≠ 0#12 := by
      intro hz
      have hb : (BitVec.twoPow 12 k).getLsbD k = (0#12).getLsbD k := by rw [hz]
      simp [hk] at hb
    simpa using this

/-! ## Counters and lengths -/

theorem bump_le (c n : Nat) : bump c n ≤ counterMax := Nat.min_le_right _ _

theorem bump_eq {c n : Nat} (h : c + n ≤ counterMax) : bump c n = c + n := Nat.min_eq_left h

@[simp] theorem atLeast_iff {α : Type} (n : Nat) (l : List α) : atLeast n l = true ↔ n ≤ l.length := by
  induction l generalizing n with
  | nil => cases n <;> simp [atLeast]
  | cons a t ih => cases n <;> simp [atLeast, ih]

@[simp] theorem length_beBytes (k v : Nat) : (beBytes k v).length = k := by
  induction k <;> simp_all [beBytes]

@[simp] theorem length_flagByte (b : Bool) : (flagByte b).length = 1 := rfl

@[simp] theorem length_zeroBytes (k : Nat) : (zeroBytes k).length = k := by simp [zeroBytes]

@[simp] theorem length_beInt (k : Nat) (v : Int) : (beInt k v).length = k := length_beBytes _ _

/-! ## Sample memory -/

theorem readByte_writeByte (m : List Host.Cell) (a a' : Nat) (b : Byte) :
    readByte (writeByte m a b) a' = if a' = a then b else readByte m a' := by
  unfold readByte writeByte
  split
  · rename_i h
    rw [assocGet_erase]
    split
    · simp [h]
    · rfl
  · rw [assocGet_put]
    split <;> rfl

theorem readByte_writeWord_outside (m : List Host.Cell) (a a' : Nat) (v : Sample) (h : a' < a ∨ a + 4 ≤ a') :
    readByte (writeWord m a v) a' = readByte m a' := by
  unfold writeWord
  simp only [readByte_writeByte]
  have h0 : a' ≠ a := by omega
  have h1 : a' ≠ a + 1 := by omega
  have h2 : a' ≠ a + 2 := by omega
  have h3 : a' ≠ a + 3 := by omega
  simp [h0, h1, h2, h3]

theorem bytes_of_word (v : Sample) :
    v.extractLsb' 24 8 ++ v.extractLsb' 16 8 ++ v.extractLsb' 8 8 ++ v.extractLsb' 0 8 = v := by
  apply BitVec.eq_of_getLsbD_eq
  intro i hi
  erw [BitVec.getLsbD_append, BitVec.getLsbD_append, BitVec.getLsbD_append]
  simp only [BitVec.getLsbD_extractLsb']
  rcases (show i < 8 ∨ (8 ≤ i ∧ i < 16) ∨ (16 ≤ i ∧ i < 24) ∨ (24 ≤ i ∧ i < 32) by omega) with h | h | h | h
  · simp only [h, if_true, decide_true, Bool.true_and, Nat.zero_add]
  · have h1 : ¬ i < 8 := by omega
    have h2 : i - 8 < 8 := by omega
    simp only [h1, h2, if_true, if_false, decide_true, Bool.true_and, show 8 + (i - 8) = i by omega]
  · have h1 : ¬ i < 8 := by omega
    have h2 : ¬ i - 8 < 8 := by omega
    have h3 : i - 8 - 8 < 8 := by omega
    simp only [h1, h2, h3, if_true, if_false, decide_true, Bool.true_and, show 16 + (i - 8 - 8) = i by omega]
  · have h1 : ¬ i < 8 := by omega
    have h2 : ¬ i - 8 < 8 := by omega
    have h3 : ¬ i - 8 - 8 < 8 := by omega
    have h4 : i - 8 - 8 - 8 < 8 := by omega
    simp only [h1, h2, h3, h4, if_false, decide_true, Bool.true_and, show 24 + (i - 8 - 8 - 8) = i by omega]

theorem readWord_writeWord_same (m : List Host.Cell) (a : Nat) (v : Sample) : readWord (writeWord m a v) a = v := by
  unfold readWord writeWord
  simp only [readByte_writeByte]
  have e1 : a ≠ a + 1 := by omega
  have e2 : a ≠ a + 2 := by omega
  have e3 : a ≠ a + 3 := by omega
  simpa [e1, e2, e3] using bytes_of_word v

theorem memory_wf_iff (m : List Host.Cell) :
    Memory.wf m = true ↔ assocSorted m = true ∧ ∀ c ∈ m, c.2 ≠ Config.unwrittenByte := by
  simp [Memory.wf]

theorem memory_wf_writeByte {m : List Host.Cell} (a : Nat) (b : Byte) (h : Memory.wf m = true) :
    Memory.wf (writeByte m a b) = true := by
  rw [memory_wf_iff] at h ⊢
  unfold writeByte
  split
  · exact ⟨assocSorted_erase a h.1, fun c hc => h.2 c (mem_assocErase hc).1⟩
  · rename_i hb
    refine ⟨assocSorted_put a b h.1, fun c hc => ?_⟩
    rcases mem_assocPut hc with rfl | hc
    · exact hb
    · exact h.2 c hc

theorem memory_wf_writeWord {m : List Host.Cell} (a : Nat) (v : Sample) (h : Memory.wf m = true) :
    Memory.wf (writeWord m a v) = true := by
  unfold writeWord
  exact memory_wf_writeByte _ _ (memory_wf_writeByte _ _ (memory_wf_writeByte _ _ (memory_wf_writeByte _ _ h)))

theorem memory_wf_reset : Memory.wf State.reset.memory = true := rfl

end Sys2Proof.Machine
end

