-- ==== Sys2Proof/Laws/Store.lean ====
section
/-! SUPPORT. What the operations of the Epoch Store and of the Emitter leave as it was, said once for all of them. -/

namespace Sys2Proof.Machine

/-- Everything outside the Epoch Store, the Station Table, the event flags, the sample memory and the Emitter is as it was. -/
structure StoreFrame (s t : State) : Prop where
  pending      : t.pending = s.pending
  quantum      : t.quantum = s.quantum
  ties         : t.ties = s.ties
  unitAddress  : t.unitAddress = s.unitAddress
  portA        : t.portA = s.portA
  portB        : t.portB = s.portB
  linkLossTime : t.linkLossTime = s.linkLossTime
  nextPort     : t.nextPort = s.nextPort
  inHand       : t.inHand = s.inHand
  map          : t.map = s.map
  ref          : t.ref = s.ref
  plan         : t.plan = s.plan
  hold         : t.hold = s.hold
  stallTimer   : t.stallTimer = s.stallTimer
  stallLimit   : t.stallLimit = s.stallLimit
  answerQueue  : t.answerQueue = s.answerQueue
  nextData     : t.nextData = s.nextData
  transmitting : t.transmitting = s.transmitting
  chain        : t.chain = s.chain
  inbound      : t.inbound = s.inbound
  agent        : t.agent = s.agent
  noticeMask   : t.noticeMask = s.noticeMask

/-- As `StoreFrame`, and the sample memory is as it was too. -/
structure StoreFrameMem (s t : State) : Prop extends StoreFrame s t where
  memory : t.memory = s.memory

theorem StoreFrame.rfl' {s : State} : StoreFrame s s := by constructor <;> rfl

theorem StoreFrameMem.rfl' {s : State} : StoreFrameMem s s := ⟨StoreFrame.rfl', rfl⟩

theorem StoreFrame.comp {s t u : State} (h : StoreFrame s t) (k : StoreFrame t u) : StoreFrame s u := by
  cases h; cases k; constructor <;> simp_all

theorem StoreFrameMem.comp {s t u : State} (h : StoreFrameMem s t) (k : StoreFrameMem t u) : StoreFrameMem s u :=
  ⟨h.toStoreFrame.comp k.toStoreFrame, k.memory.trans h.memory⟩

theorem StoreFrameMem.foldl {α : Type} {f : State → α → State} (h : ∀ s a, StoreFrameMem s (f s a)) (l : List α) (s : State) :
    StoreFrameMem s (l.foldl f s) := by
  induction l generalizing s with
  | nil => exact StoreFrameMem.rfl'
  | cons a t ih => exact (h s a).comp (ih (f s a))

theorem raise_frame (s : State) (f : EventFlag) : StoreFrameMem s (s.raise f) := by constructor <;> (try constructor) <;> simp

theorem modifyStation_frame (s : State) (slot : Nat) (f : Station → Station) : StoreFrameMem s (s.modifyStation slot f) := by
  constructor <;> (try constructor) <;> simp

theorem dropRecord_frame (s : State) (i : Nat) : StoreFrameMem s (s.dropRecord i) := by
  unfold State.dropRecord; split <;> (constructor <;> (try constructor) <;> rfl)

theorem endStarved_frame (s : State) : StoreFrameMem s s.endStarved := by constructor <;> (try constructor) <;> simp

/-- The Withhold suspension (R55). -/
theorem withhold_frame (s : State) : StoreFrameMem s s.withhold := by constructor <;> (try constructor) <;> simp

theorem withhold_of_settled {s : State} (h : s.failureSignal = false) : s.withhold = s := by simp [State.withhold, h]

theorem withhold_of_running {s : State} (h : s.failureSignal = true) (hs : s.store = .ready ∨ s.store = .starved) :
    s.withhold = { s.suspend.raise .storeWithheld with failureSignal := false } := by simp [State.withhold, h, hs]

/-- Nothing stays to take effect. -/
theorem withhold_withhold (s : State) : s.withhold.withhold = s.withhold := withhold_of_settled (by simp)

theorem openFrontAfterFree_frame (s : State) : StoreFrameMem s s.openFrontAfterFree := by
  unfold State.openFrontAfterFree
  split
  · split <;> (constructor <;> (try constructor) <;> rfl)
  · exact StoreFrameMem.rfl'

theorem freeEmitted_frame (s : State) (i : Nat) : StoreFrameMem s (s.freeEmitted i) :=
  ((dropRecord_frame s i).comp (endStarved_frame _)).comp (openFrontAfterFree_frame _)

theorem emptySegment_frame (s : State) (i slot : Nat) (c : Fin 4) (n : Nat) : StoreFrameMem s (s.emptySegment i slot c n) := by
  unfold State.emptySegment; split <;> (constructor <;> (try constructor) <;> rfl)

theorem emptyChannel_frame (s : State) (slot : Nat) (c : Fin 4) (n : Nat) : StoreFrameMem s (s.emptyChannel slot c n) :=
  (StoreFrameMem.foldl (fun s (p : Nat × EpochRecord) => emptySegment_frame s p.1 slot c n) _ s).comp (endStarved_frame _)

theorem emptyFour_frame (s : State) (i slot : Nat) :
    StoreFrameMem s ((((s.emptySegment i slot 0 0).emptySegment i slot 1 0).emptySegment i slot 2 0).emptySegment i slot 3 0) :=
  (((emptySegment_frame s i slot 0 0).comp (emptySegment_frame _ i slot 1 0)).comp (emptySegment_frame _ i slot 2 0)).comp
    (emptySegment_frame _ i slot 3 0)

theorem emptySlot_frame (s : State) (slot : Nat) : StoreFrameMem s (s.emptySlot slot) := by
  unfold State.emptySlot
  exact (StoreFrameMem.foldl (fun s (p : Nat × EpochRecord) => emptyFour_frame s p.1 slot) _ s).comp (endStarved_frame _)

theorem closeRecord_frame (s : State) (i : Nat) : StoreFrameMem s (s.closeRecord i) := by
  unfold State.closeRecord; split <;> (constructor <;> (try constructor) <;> rfl)

theorem closeDue_frame (s : State) : StoreFrameMem s s.closeDue :=
  StoreFrameMem.foldl (fun s (p : Nat × EpochRecord) => closeRecord_frame s p.1) _ s

theorem skipTo_frame (s : State) (first : Nat) : StoreFrameMem s (s.skipTo first) := by
  unfold State.skipTo
  split
  · split
    · constructor <;> (try constructor) <;> simp
    · exact StoreFrameMem.rfl'
  · exact StoreFrameMem.rfl'

theorem openFronts_frame (lo k : Nat) (s : State) : StoreFrameMem s (openFronts lo k s) := by
  induction k generalizing s with
  | zero => exact StoreFrameMem.rfl'
  | succ k ih =>
    unfold openFronts
    split
    · split
      · exact StoreFrameMem.comp (by constructor <;> (try constructor) <;> rfl) (ih _)
      · exact raise_frame s _
    · exact StoreFrameMem.rfl'

theorem openWindow_frame (s : State) : StoreFrameMem s s.openWindow := by
  unfold State.openWindow
  split
  · exact openFronts_frame _ _ s
  · exact StoreFrameMem.rfl'

/-- The close evaluation (R81). -/
theorem closeEvaluation_frame (s : State) : StoreFrameMem s s.closeEvaluation := by
  unfold State.closeEvaluation
  split
  · exact StoreFrameMem.rfl'
  · exact ((closeDue_frame s).comp (skipTo_frame _ _)).comp (openWindow_frame _)

theorem dropRecords_frame (s : State) (rs : List (Nat × EpochRecord)) : StoreFrameMem s (s.dropRecords rs) :=
  StoreFrameMem.foldl (fun s (p : Nat × EpochRecord) => dropRecord_frame s p.1) _ s

theorem freeSegmentPages_frame (s : State) (i slot : Nat) (c : Fin 4) : StoreFrameMem s (s.freeSegmentPages i slot c) := by
  unfold State.freeSegmentPages; split <;> (constructor <;> (try constructor) <;> rfl)

theorem freeFragmentPages_frame (s : State) (e : Emission) : StoreFrameMem s (s.freeFragmentPages e) :=
  StoreFrameMem.foldl (fun s slot => StoreFrameMem.foldl (fun s c => freeSegmentPages_frame s e.record slot c) _ s) _ s

theorem countDrop_frame (s : State) : StoreFrameMem s s.countDrop := by
  unfold State.countDrop; constructor <;> (try constructor) <;> simp

theorem dropHead_frame (s : State) : StoreFrameMem s s.dropHead := by
  unfold State.dropHead
  split
  · exact StoreFrameMem.comp (StoreFrameMem.comp (by constructor <;> (try constructor) <;> rfl) (freeEmitted_frame _ _))
      (countDrop_frame _)
  · exact StoreFrameMem.rfl'

theorem dropHeads_frame (k : Nat) (s : State) : StoreFrameMem s (dropHeads k s) := by
  induction k generalizing s with
  | zero => exact StoreFrameMem.rfl'
  | succ k ih => exact (dropHead_frame s).comp (ih _)

theorem withEmitter_frame {s t : State} (h : StoreFrameMem s t) (e : Emitter) : StoreFrameMem s { t with emitter := e } := by
  cases h with | mk h m => cases h; constructor <;> (try constructor) <;> simp_all

theorem withDeferred_frame {s t : State} (h : StoreFrameMem s t) (n : Nat) : StoreFrameMem s { t with deferredExpiries := n } := by
  cases h with | mk h m => cases h; constructor <;> (try constructor) <;> simp_all

/-- A stall expiry at the Emitter (R139, R140). -/
theorem stallExpiry_frame (s : State) : StoreFrameMem s s.stallExpiry := by
  unfold State.stallExpiry
  split
  · exact dropHead_frame s
  · exact (withEmitter_frame (freeEmitted_frame _ _) _).comp (countDrop_frame _)
  · split
    · exact dropHead_frame s
    · split
      · exact withDeferred_frame StoreFrameMem.rfl' _
      · exact (withEmitter_frame StoreFrameMem.rfl' _).comp (countDrop_frame _)

/-- The completion of a fragment at the Emitter (R136, R137, R139, R143). -/
theorem completeFragment_frame (s : State) : StoreFrameMem s s.completeFragment := by
  unfold State.completeFragment
  split
  · simp only
    split
    · exact withDeferred_frame ((withEmitter_frame (((freeFragmentPages_frame s _).comp (endStarved_frame _)).comp
        (freeEmitted_frame _ _)) _).comp (dropHeads_frame _ _)) _
    · exact withEmitter_frame ((freeFragmentPages_frame s _).comp (endStarved_frame _)) _
  · exact withDeferred_frame ((withEmitter_frame ((freeFragmentPages_frame s _).comp (freeEmitted_frame _ _)) _).comp
      (dropHeads_frame _ _)) _
  · exact StoreFrameMem.rfl'

/-! ## Placement -/

theorem modifyRecord_frame (s : State) (i : Nat) (f : EpochRecord → EpochRecord) : StoreFrameMem s (s.modifyRecord i f) := by
  unfold State.modifyRecord; split <;> (constructor <;> (try constructor) <;> rfl)

theorem takePage_frame (s : State) : StoreFrameMem s s.takePage := by
  unfold State.takePage
  simp only
  split
  · exact StoreFrameMem.comp (by constructor <;> (try constructor) <;> rfl) (raise_frame _ _)
  · constructor <;> (try constructor) <;> rfl

theorem enterStarved_frame (s : State) : StoreFrameMem s s.enterStarved := by constructor <;> (try constructor) <;> simp

/-- A sample written (R91): the frame, and all it does to the sample memory. -/
theorem writeSample_frame (s : State) (i : Nat) (p : InHand) (slot : Nat) (page : PageNo) (v : Sample) :
    StoreFrame s (s.writeSample i p slot page v) ∧
      ((s.writeSample i p slot page v).memory = s.memory ∨
        (s.writeSample i p slot page v).memory = writeWord s.memory (wordAddress page (slot % 64)) v) := by
  unfold State.writeSample
  split
  · exact ⟨by constructor <;> rfl, Or.inr rfl⟩
  · exact ⟨StoreFrame.rfl', Or.inl rfl⟩

theorem placeInRecord_frame (s : State) (i : Nat) (r : EpochRecord) (p : InHand) (slot : Nat) (v : Sample) :
    StoreFrame s (s.placeInRecord i r p slot v) := by
  have ov : StoreFrame s ((s.markOverlap i p).modifyStation p.slot (·.count (fun c => { c with overlap := bump c.overlap }))) :=
    ((modifyRecord_frame s i _).comp (modifyStation_frame _ _ _)).toStoreFrame
  unfold State.placeInRecord
  simp only
  split
  · split
    · exact ov
    · exact (writeSample_frame _ _ _ _ _ _).1
  · split
    · exact ov
    · exact (takePage_frame s).toStoreFrame.comp (writeSample_frame _ _ _ _ _ _).1
  · exact ((enterStarved_frame s).comp (modifyStation_frame _ _ _)).toStoreFrame
  · exact (modifyStation_frame _ _ _).toStoreFrame

theorem placeSample_frame (s : State) (p : InHand) (n gs : Nat) (v : Sample) : StoreFrame s (s.placeSample p n gs v) := by
  unfold State.placeSample
  simp only
  split
  · exact (modifyStation_frame _ _ _).toStoreFrame
  · split
    · exact (modifyStation_frame _ _ _).toStoreFrame
    · split
      · exact (modifyStation_frame _ _ _).toStoreFrame
      · exact placeInRecord_frame _ _ _ _ _ _

/-- The placement of a packet (R89). -/
theorem placeSamples_frame (p : InHand) (n : Nat) (vs : List Sample) (gs : Nat) (s : State) :
    StoreFrame s (placeSamples p n gs vs s) := by
  induction vs generalizing gs s with
  | nil => exact StoreFrame.rfl'
  | cons v vs ih => exact (placeSample_frame s p n gs v).comp (ih _ _)

end Sys2Proof.Machine
end

