-- ==== Sys2Proof/Laws/Agent.lean ====
section
/-! SUPPORT. What taking a directive can do, said once for all the directives (R163), and what a waiting one holds back (R13, R38,
R118). -/

namespace Sys2Proof.Machine

/-- An entry of the directive's own code and length, which need not wait: its own rule decides. -/
theorem runDirective_takes {s : State} {p : Progress} {e : Entry} {rest : List Entry} {code len : Nat}
    {waits : State → List Byte → Bool} {body : State → List Byte → DirResult} (h : Takes s p e rest code len)
    (hw : waits s e.params = false) :
    runDirective code len waits body s =
      (body s e.params).state.finishEntry p e rest (body s e.params).outcome (body s e.params).data := by
  simp [runDirective, h.progress, h.todo, h.code, h.length, hw, withhold_of_settled h.settled]

/-- A directive that need not wait is taken as if a Withhold suspension signalled before had been taken first (R55). -/
theorem runDirective_withhold {s : State} {p : Progress} {e : Entry} {rest : List Entry} {code len : Nat}
    {waits : State → List Byte → Bool} {body : State → List Byte → DirResult} (h : Current s p e rest code len)
    (hw : waits s e.params = false) (hw' : waits s.withhold e.params = false) :
    runDirective code len waits body s = runDirective code len waits body s.withhold := by
  simp [runDirective, h.progress, h.todo, h.code, h.length, hw, hw', withhold_withhold]

/-- A directive that must wait leaves the agent Held and the rest of the part as it was. -/
theorem runDirective_waits {s : State} {p : Progress} {e : Entry} {rest : List Entry} {code len : Nat}
    {waits : State → List Byte → Bool} {body : State → List Byte → DirResult} (h : Current s p e rest code len)
    (hw : waits s e.params = true) : runDirective code len waits body s = { s with agent := .held p } := by
  simp [runDirective, h.progress, h.todo, h.code, h.length, hw]

/-- An entry of the directive's code and another length is MALFORMED. -/
theorem runDirective_malformed {s : State} {p : Progress} {e : Entry} {rest : List Entry} {code len : Nat}
    {waits : State → List Byte → Bool} {body : State → List Byte → DirResult} (hp : s.agent.progress = some p)
    (ht : p.todo = e :: rest) (hc : e.code.toNat = code) (hl : e.params.length ≠ len) :
    runDirective code len waits body s = s.finishEntry p e rest .malformed [] := by
  simp [runDirective, hp, ht, hc, hl]

/-- Everything a directive command can do: nothing, MALFORMED, waiting, or its own rule. -/
theorem runDirective_cases (code len : Nat) (waits : State → List Byte → Bool) (body : State → List Byte → DirResult)
    (s : State) :
    runDirective code len waits body s = s ∨
      ∃ p e rest, s.agent.progress = some p ∧ p.todo = e :: rest ∧ e.code.toNat = code ∧
        ((e.params.length ≠ len ∧ runDirective code len waits body s = s.finishEntry p e rest .malformed []) ∨
          (e.params.length = len ∧ waits s e.params = true ∧ runDirective code len waits body s = { s with agent := .held p }) ∨
          (e.params.length = len ∧ waits s e.params = false ∧ runDirective code len waits body s =
            (body s.withhold e.params).state.finishEntry p e rest (body s.withhold e.params).outcome
              (body s.withhold e.params).data)) := by
  unfold runDirective
  split
  · exact Or.inl rfl
  · rename_i p hp
    split
    · exact Or.inl rfl
    · rename_i e rest ht
      split
      · exact Or.inl rfl
      · rename_i hc
        refine Or.inr ⟨p, e, rest, hp, ht, not_not.1 hc, ?_⟩
        split
        · exact Or.inl ⟨by assumption, rfl⟩
        · rename_i hl
          split
          · exact Or.inr (Or.inl ⟨not_not.1 hl, by assumption, rfl⟩)
          · exact Or.inr (Or.inr ⟨not_not.1 hl, by simpa using ‹¬waits s e.params = true›, rfl⟩)

/-- With no packet in hand no directive must wait (R163). -/
theorem mustWait_of_empty {s : State} (h : s.inHand = none) (e : Entry) : s.mustWait e = false := by
  have hp : ∀ ps, waitsForPath s ps = false := by simp [waitsForPath, h]
  have hs : ∀ ps, waitsForStation s ps = false := fun ps => handles_of_empty h _
  unfold State.mustWait
  split <;> simp [hp, hs]

/-- With no packet in hand the waiting directive is the agent's step (R13, R38, R118). -/
theorem agentStep_held {s : State} {p : Progress} {e : Entry} {rest : List Entry} (ha : s.agent = .held p) (ht : p.todo = e :: rest)
    (h : s.inHand = none) : s.agentStep = [commandOf e.code.toNat] := by
  simp [State.agentStep, ha, ht, mustWait_of_empty h]

/-- The arbiter takes nothing while a packet is in hand, a directive waits, or a Withhold suspension is still to take effect (R112,
R13, R38, R118, R55). -/
theorem arbiterTake_not_free {s : State} (h : s.pathFree = false) : execArbiterTake s = .next s := by
  simp [execArbiterTake, h]

/-- What the arbiter does with a packet that it can take (R112). -/
theorem arbiterTake_takes {s : State} {p : Port} {bs : List Byte} (h : TakesPacket s p bs) :
    execArbiterTake s = .next ((s.take p).handlePacket p bs) := by
  have hf : s.pathFree = true := (pathFree_iff s).2 ⟨h.free, h.notHeld, h.settled⟩
  obtain ⟨tl, hq⟩ : ∃ tl, (s.trunk p).fifo = bs :: tl := List.head?_eq_some_iff.1 h.head
  have hp : s.takePort = some p := by
    rcases h.turn with rfl | ⟨rfl, he⟩
    · simp [State.takePort, hq]
    · simp [State.takePort, hq, he]
  simp [execArbiterTake, hf, hp, hq]

/-- Forming an entry, and placing the answer, act on the answer queue, the inbound queue and the agent alone (R164, R166). -/
theorem finishEntry_only (s : State) (p : Progress) (e : Entry) (rest : List Entry) (o : DirOutcome) (data : List Byte) :
    ∃ q i a, s.finishEntry p e rest o data = { s with answerQueue := q, inbound := i, agent := a } := by
  unfold State.finishEntry
  simp only
  split
  · exact ⟨_, _, _, rfl⟩
  · split
    · exact ⟨_, _, _, rfl⟩
    · exact ⟨_, _, _, rfl⟩

end Sys2Proof.Machine
end

