-- ==== Sys2Proof/Laws/Exec.lean ====
section
/-! SUPPORT. What executing any command does in outline. -/

namespace Sys2Proof.Machine

/-- No command ends in a fault or a refusal. -/
theorem exec_next (i : Instr) (s : State) : ∃ t, exec i s = .next t := by cases i <;> exact ⟨_, rfl⟩

/-- No step ends in a fault or a refusal. -/
theorem step_next (s : State) : ∃ t, step s = .next t := by
  unfold step
  split
  · exact ⟨_, rfl⟩
  · exact exec_next _ _

/-- A step on an empty queue. -/
theorem step_idle {s : State} (h : s.pending = []) : step s = .next s.idleStep := by simp [step, h]

end Sys2Proof.Machine
end

