-- ==== Sys2Proof/Laws/PerInstr.lean ====
section
/-! SUPPORT. Per command: the directive that the agent takes an entry of a given code for (R163, R182). -/

namespace Sys2Proof.Laws.DirectiveCodes

open Sys2Proof.Machine

/-- A command that has a directive code is the command by which the agent takes an entry of that code, and the parameters of an
entry fit its length byte. -/
def Statement (i : Instr) : Prop := ∀ c l, directiveCode i = some (c, l) → commandOf c = i ∧ c < 256 ∧ l < 256

/-- A command that no directive code names. -/
theorem of_none {i : Instr} (h : directiveCode i = none) : Statement i := fun c l hs => by
  rw [h] at hs
  cases hs

/-- A directive command. -/
theorem of_some {i : Instr} {code length : Nat} (h : directiveCode i = some (code, length)) (hc : commandOf code = i)
    (hb : code < 256 ∧ length < 256) : Statement i := fun c l hs => by
  rw [h] at hs
  cases hs
  exact ⟨hc, hb.1, hb.2⟩

theorem powerOnReset (straps : BitVec 4) : Statement (.powerOnReset straps) := of_none rfl
theorem packetArrival (port : Port) (bytes : List Byte) : Statement (.packetArrival port bytes) := of_none rfl
theorem lossOfSignalIndication (port : Port) : Statement (.lossOfSignalIndication port) := of_none rfl
theorem linkLossTimerExpiry (port : Port) : Statement (.linkLossTimerExpiry port) := of_none rfl
theorem arbiterTake : Statement .arbiterTake := of_none rfl
theorem handOff : Statement .handOff := of_none rfl
theorem silenceTimerExpiry (slot : Nat) : Statement (.silenceTimerExpiry slot) := of_none rfl
theorem timeMark (mark : Mark) : Statement (.timeMark mark) := of_none rfl
theorem markTimerExpiry : Statement .markTimerExpiry := of_none rfl
theorem holdoverTimerExpiry : Statement .holdoverTimerExpiry := of_none rfl
theorem withholdSuspension : Statement .withholdSuspension := of_none rfl
theorem closeTimeReached : Statement .closeTimeReached := of_none rfl
theorem stallTimerExpiry : Statement .stallTimerExpiry := of_none rfl
theorem directivePacketArrival (bytes : List Byte) : Statement (.directivePacketArrival bytes) := of_none rfl
theorem forwardComplete : Statement .forwardComplete := of_none rfl
theorem hold : Statement .hold := of_none rfl
theorem release : Statement .release := of_none rfl
theorem frameArrival (bytes : List Byte) : Statement (.frameArrival bytes) := of_none rfl
theorem chainLossOfSignal : Statement .chainLossOfSignal := of_none rfl
theorem chainLinkLossTimerExpiry : Statement .chainLinkLossTimerExpiry := of_none rfl
theorem grant : Statement .grant := of_none rfl
theorem fragmentCompletion : Statement .fragmentCompletion := of_none rfl
theorem answerCompletion : Statement .answerCompletion := of_none rfl
theorem passThroughCompletion : Statement .passThroughCompletion := of_none rfl
theorem noticeCompletion : Statement .noticeCompletion := of_none rfl
theorem beginPacket : Statement .beginPacket := of_none rfl
theorem unknown : Statement .unknown := of_none rfl
theorem identify : Statement .identify := of_some rfl rfl (by decide)
theorem setPlan : Statement .setPlan := of_some rfl rfl (by decide)
theorem setReference : Statement .setReference := of_some rfl rfl (by decide)
theorem setLinks : Statement .setLinks := of_some rfl rfl (by decide)
theorem mapStation : Statement .mapStation := of_some rfl rfl (by decide)
theorem unmapStation : Statement .unmapStation := of_some rfl rfl (by decide)
theorem setChannel : Statement .setChannel := of_some rfl rfl (by decide)
theorem stageCorrection : Statement .stageCorrection := of_some rfl rfl (by decide)
theorem commitCorrection : Statement .commitCorrection := of_some rfl rfl (by decide)
theorem discardStaged : Statement .discardStaged := of_some rfl rfl (by decide)
theorem quarantine : Statement .quarantine := of_some rfl rfl (by decide)
theorem unquarantine : Statement .unquarantine := of_some rfl rfl (by decide)
theorem readStation : Statement .readStation := of_some rfl rfl (by decide)
theorem readCounters : Statement .readCounters := of_some rfl rfl (by decide)
theorem readStore : Statement .readStore := of_some rfl rfl (by decide)
theorem readFlags : Statement .readFlags := of_some rfl rfl (by decide)
theorem clearFlags : Statement .clearFlags := of_some rfl rfl (by decide)
theorem setNoticeMask : Statement .setNoticeMask := of_some rfl rfl (by decide)
theorem storeStart : Statement .storeStart := of_some rfl rfl (by decide)
theorem storeStop : Statement .storeStop := of_some rfl rfl (by decide)
theorem storeSuspend : Statement .storeSuspend := of_some rfl rfl (by decide)
theorem storeResume : Statement .storeResume := of_some rfl rfl (by decide)
theorem restart : Statement .restart := of_some rfl rfl (by decide)

end Sys2Proof.Laws.DirectiveCodes
end

