-- ==== Sys2Proof/WellFormed.lean ====
section
/-! DEFINITION. What an operand must be beyond its type. -/

namespace Sys2Proof

/-- A command is well formed when a table slot it names is one of the 192 (R1). Every run of bytes is a possible arrival
(R103, R152, R156), every 32-bit second number is usable (R42), and every setting of the four straps (R167). -/
def Instr.wf : Instr → Bool
  | .silenceTimerExpiry slot => decide (slot ≤ 191)
  | .powerOnReset _ | .packetArrival _ _ | .lossOfSignalIndication _ | .linkLossTimerExpiry _ | .arbiterTake | .handOff
  | .timeMark _ | .markTimerExpiry | .holdoverTimerExpiry | .withholdSuspension | .closeTimeReached | .stallTimerExpiry
  | .directivePacketArrival _ | .forwardComplete | .hold | .release | .frameArrival _ | .chainLossOfSignal
  | .chainLinkLossTimerExpiry | .grant | .fragmentCompletion | .answerCompletion | .passThroughCompletion
  | .noticeCompletion | .beginPacket | .unknown | .identify | .setPlan | .setReference | .setLinks | .mapStation
  | .unmapStation | .setChannel | .stageCorrection | .commitCorrection | .discardStaged | .quarantine | .unquarantine
  | .readStation | .readCounters | .readStore | .readFlags | .clearFlags | .setNoticeMask | .storeStart | .storeStop
  | .storeSuspend | .storeResume | .restart => true

end Sys2Proof
end

