-- ==== Sys2Proof/Tests/Slice0.lean ====
section
/-! SUPPORT. Small tests of the model on the spec's own figures, and for each statement with hypotheses a state that meets them. -/

namespace Sys2Proof.Tests

open Sys2Proof Sys2Proof.Machine

/-! ## Well-formedness and words -/

theorem test_slot_191_is_well_formed : Instr.wf (.silenceTimerExpiry 191) = true := by decide

theorem test_slot_192_is_refused : Instr.wf (.silenceTimerExpiry 192) = false := by decide

theorem test_no_word_spells_a_command : decodeTableWord 8 0 = none ∧ decodeTableWord 16 0x5317 = none := by decide

/-! ## The spec's worked figures -/

/-- R71: the drift, the base case and the rounding cases of 03_from_station_time_to_network_time. -/
theorem test_drift_terms :
    driftTerm 600000000 (-1200) = -720000 ∧ driftTerm 500000 1 = 1 ∧ driftTerm (-500000) 1 = -1 ∧ driftTerm 499999 1 = 0 := by
  decide

/-- R60 to R65: the base case, the same network time on other grids, and the tie. -/
theorem test_base_case :
    let c : Correction :=
      { offset := -2340, drift := 1500, refTime := 6600000993, span := 3600, version := 7, isDefault := false, switch := none }
    netTime c 7200000993 = 7200001890660 ∧ globalSlotOf 7200001890660 (periodNs 6) = 720000 ∧
    residualOf 7200001890660 (periodNs 6) = 1890660 ∧ globalSlotOf 7200001890660 (periodNs 1) = 7200 ∧
    residualOf 7200001890660 (periodNs 10) = -109340 ∧ residualOf 7200005000000 (periodNs 6) = -5000000 ∧
    residualOf 7200004999999 (periodNs 6) = 4999999 := by
  decide

/-- R61, R63: the span clamp and the clamp at zero. -/
theorem test_clamps :
    let c : Correction :=
      { offset := 0, drift := 1500, refTime := 0, span := 86400, version := 0, isDefault := false, switch := none }
    netTime c 90000000000 = 90000129600000 ∧ isExtrapolated c 90000000000 = true ∧
    netTime { c with offset := -500000000000, drift := 0 } 120000000 = 0 := by
  decide

/-- R68: the 24-bit payload read least significant byte first. -/
theorem test_sample_words :
    (rawSamples .bits24 .leastFirst 3 [0x10, 0x27, 0x00, 0xF0, 0xD8, 0xFF, 0x00, 0x00, 0x80]).map BitVec.toInt
      = [10000, -10000, -8388608] ∧ clampSample 0x80000000 = 0x80000001 := by
  decide

/-- R15: 100 Hz has n = 100 under 1000 ms and 25 under 250 ms; 1 Hz does not fit 500 ms, nor 1000 Hz 1000 ms. -/
theorem test_rates_that_fit :
    samplesPerEpoch 6 1000 = some 100 ∧ samplesPerEpoch 6 250 = some 25 ∧ samplesPerEpoch 1 500 = none ∧
    samplesPerEpoch 10 1000 = none ∧ samplesPerEpoch 10 500 = some 500 := by
  decide

/-- R71: the check fields of three words and of three bytes, and the damaged byte. -/
theorem test_check_fields :
    withCheck [0x12, 0x34, 0xF0, 0x0D, 0x0F, 0x0F] = [0x12, 0x34, 0xF0, 0x0D, 0x0F, 0x0F, 0xEE, 0xAE] ∧
    withCheck [0x12, 0x34, 0x56] = [0x12, 0x34, 0x56, 0x97, 0xCB] ∧ checkPasses [0x12, 0x34, 0x56, 0x97, 0xCB] = true ∧
    checkPasses [0x12, 0x35, 0x56, 0x97, 0xCB] = false := by
  decide

/-- The window after each of a run of sequence numbers, with the results. -/
def judgeAll : Option SeqWindow → List (BitVec 16) → List Verdict × Option SeqWindow
  | w, [] => ([], w)
  | w, q :: qs => let r := judgeAll (some (judge false w q).2) qs; ((judge false w q).1 :: r.1, r.2)

/-- R120, R121: the sixteen packets of 07_sequence_windows; the map is {9, 10, 11, 12, 40} after them. -/
theorem test_one_channels_window :
    judgeAll none [65534, 65535, 1, 0, 0, 1, 40, 5, 6, 7, 8, 9, 10, 11, 40, 12] =
      ([.accepted, .accepted, .accepted, .accepted, .duplicate, .duplicate, .accepted, .stale, .stale, .stale, .stale, .accepted,
        .accepted, .accepted, .duplicate, .accepted],
       some { high := 40, marks := 0x8000000F, staleRun := 0 }) := by
  decide

/-- R122: the eighth stale copy of the lagging route begins the window anew. -/
theorem test_resynchronisation :
    judgeAll (some { high := 1000, marks := 0xFFFFFFFF, staleRun := 0 }) [961, 962, 963, 964, 965, 966, 967, 968, 969] =
      ([.stale, .stale, .stale, .stale, .stale, .stale, .stale, .accepted, .accepted],
       some { high := 969, marks := 0xC0000000, staleRun := 0 }) := by
  decide

/-- The part after a command. -/
def after (i : Instr) (s : State) : State :=
  match exec i s with
  | .next t => t
  | _ => s

/-- NT_now and the seconds of the reference example, in ns after its base. -/
def marked (s : State) (ns : Nat) (m : Mark) : State :=
  after (.timeMark m) { s with ref := { s.ref with ntNow := 1700000000000000000 + ns } }

/-- The reference example of 03_network_time_and_the_reference_input up to its third valid mark. -/
def locked : State :=
  marked (marked (marked State.reset 0 (.valid 1700000000)) 1000005000 (.valid 1700000001)) 2000005000 (.valid 1700000002)

/-- R46, R47: acquisition. -/
theorem test_acquisition :
    locked.ref.state = .locked ∧ locked.ref.goodCount = 3 ∧ locked.ref.ntNow = 1700000002000000000 ∧
    hasFlag locked.flags .refChange = true := by
  decide

/-- R49: the wrong second number is rejected, and the next mark, at the lock window exactly, is in agreement. -/
theorem test_wrong_second_number :
    let s := marked locked 3000005000 .bare
    let t := marked s 4000005000 (.valid 1700000009)
    let u := marked t 5000010000 (.valid 1700000005)
    t.ref.rejectCount = 1 ∧ t.ref.lastSecond = some 1700000004 ∧ u.ref.rejectCount = 0 ∧ u.ref.state = .locked ∧
    u.ref.ntNow = 1700000005000000000 := by
  decide

/-- R131: 9,344 and 9,028 bytes in two fragments. -/
theorem test_fragment_plan :
    packSections [] 0 [(0, 1264), (3, 8080), (4, 8080), (7, 884), (9, 64)] = [[0, 3], [4, 7, 9]] := by
  decide

/-! ## A part in operation -/

/-- Station 0x4C21 in slot 17, Tracking, with one channel of 10 Hz in 16-bit words. -/
def station17 : Station :=
  { freshStation 0x4C21 { a := true, b := false } 30 with
    state := .tracking
    silence := some 5
    channels := { (freshStation 0 { a := true, b := false } 1).channels with
      q0 := { rate := 2, word := .bits16, order := .mostFirst, window := none, duplicates := 0, stale := 0 } } }

/-- The segment of its channel 0: sample 9 in slot 0, on page 0. -/
def segment17 : Segment := { n := 10, pages := [(0, 0)], fill := 1, filled := 1, residual := some 7, quality := 1 }

/-- Epoch 0, Open. -/
def epoch0 : EpochRecord :=
  { state := .opened, number := 0, start := 0, epochLength := 1000, refAtClose := none, storeAtClose := none, skipped := 0,
    sections := none, segments := [(68, segment17)] }

/-- Locked and Ready, epoch 0 Open and its close time just reached, port A Up. -/
def live : State :=
  { State.reset with
    portA := { TrunkPort.reset with link := .up, timer := some 7 }
    map := [{ code := 0x4C21, slot := 17 }]
    stations := [(17, station17)]
    ref := { RefClock.reset with
      ntNow := 3000000000, state := .locked, lastSecond := some 3, goodCount := 3, markTimer := some 0 }
    store := .ready
    eLo := some 0
    records := [(0, epoch0)]
    freePages := pagesFrom 16383 1
    memory := [(3, 9)] }

/-- The live part in Failed under Withhold, its Ready store still to be suspended. -/
def signalled : State :=
  { live with
    ref := { live.ref with state := .failed, markTimer := none }
    plan := { live.plan with failureAction := .withhold }
    failureSignal := true }

/-- A station packet of channel 0 of station 0x4C21: sequence number, station time in us, two 16-bit samples. -/
def packet17 (q t : Nat) : List Byte :=
  withCheck ([0x51, 0, 4, 0x4C, 0x21, 0, 0] ++ beBytes 2 q ++ beBytes 6 t ++ [2, 0, 5, 0xFF, 0xFB])

/-- The agent executing a packet with one entry left, of a directive code and parameters. -/
def taking (s : State) (code : Nat) (params : List Byte) : State :=
  { s with
    agent := .executing
      { todo := [{ code := BitVec.ofNat 8 code, params := params }], formed := [], tag := 7, stopOnRefusal := false } }

/-- The outcome and the result data of the entry that a command forms there. -/
def formed (i : Instr) (s : State) : List Byte := ((after i s).answerQueue.flatten.drop 11).dropLast.dropLast

/-- R104, R112, R113, R117: a packet accepted, corrected and placed: two samples at 0.1 s, slots 1 and 2 of epoch 0. -/
theorem test_packet_to_store :
    let t := after .handOff (after .arbiterTake (after (.packetArrival .a (packet17 5 100000)) live))
    (t.records.map (fun r => r.2.segments)) =
      [[(68, { n := 10, pages := [(0, 0)], fill := 3, filled := 7, residual := some 7, quality := 1 })]] ∧
    readWord t.memory 4 = 5 ∧ readWord t.memory 8 = 0xFFFFFFFB ∧ t.inHand = none := by
  decide +kernel

/-- R81, R82, R84: the close of epoch 0 at its close time, and the window of four epochs after it. -/
theorem test_close_of_epoch_0 :
    let t := after .closeTimeReached live
    t.closedQueue = [0] ∧ t.eLo = some 1 ∧ t.openRecords.map (·.2.number) = [1, 2, 3, 4] ∧ t.pendingSkip = 0 := by
  decide

/-- R167, R163, R183: IDENTIFY's outcome entry. -/
theorem test_identify :
    formed .identify (taking live 0x01 []) = [0, 0, 9, 0x1C, 0x96, 1, 0, 0xC0, 4, 0x10, 0x40, 0] := by
  decide

/-- R153, R154 at unit address 2: forwarded with its hop count lowered, and executed here. -/
theorem test_routing_at_unit_2 :
    let s : State := { live with unitAddress := 2, chain := { ChainPort.reset with link := .up, timer := some 0 } }
    let packet : Byte → Byte → List Byte := fun dest hop => withCheck [0x53, 0, 0, dest, hop, 0, 1, 0, 0, 0]
    let t := after (.directivePacketArrival (packet 3 1)) s
    let u := after (.directivePacketArrival (packet 31 2)) s
    (t.chain.outgoing.map (fun f => f.getD 4 9)) = some 0 ∧ t.inbound = [] ∧ u.inbound.length = 1 ∧
    (u.chain.outgoing.map (fun f => f.getD 4 9)) = some 1 ∧
    (after (.directivePacketArrival (packet 5 0)) s).chain.forwardDrops = 1 := by
  decide

/-! ## States that meet the hypotheses of the statements

One theorem for each statement of Certificates/Slice0/Obligations.lean that has hypotheses, named after it; its members are the
cases of the statement, in their order. -/

/-- The map and the station records of a part with one mapped station. -/
theorem mapInv_one {s : State} {st : Station} (hm : s.map = [{ code := 0x4C21, slot := 17 }]) (hs : s.stations = [(17, st)])
    (hc : st.code = 0x4C21) : MapInv s where
  ascending := by simp [hm]
  atMost := by simp [hm, Config.stationSlots]
  codes := by simp [hm, Config.stationSlots]
  named := by simp [hm, hs, State.station, assocGet, hc]
  distinct := by simp [hm]
  listed := by
    intro slot st' h
    simp only [State.station, hs, assocGet] at h
    split at h
    · simp_all
    · exact absurd h (by simp)

/-- The part with a packet waiting in the FIFO of port A, and its station as given. -/
def fed (bs : List Byte) (st : Station) : State :=
  { live with portA := { live.portA with fifo := [bs] }, stations := [(17, st)] }

theorem fed_takes (bs : List Byte) (st : Station) : TakesPacket (fed bs st) .a bs := ⟨rfl, rfl, rfl, rfl, Or.inl rfl⟩

/-- A state that can take a directive of a code and length, with its parameters as said. -/
def Meets (s : State) (code length : Nat) (holds : List Byte → Prop) : Prop :=
  ∃ p e rest, Takes s p e rest code length ∧ holds e.params

theorem meets_taking {s : State} {code length : Nat} {params : List Byte} {holds : List Byte → Prop}
    (hc : (BitVec.ofNat 8 code).toNat = code) (hl : params.length = length) (hp : holds params)
    (hs : s.failureSignal = false := by rfl) : Meets (taking s code params) code length holds :=
  ⟨_, _, _, ⟨⟨rfl, rfl, hc, hl⟩, hs⟩, hp⟩

/-- No packet of the slot is in hand. -/
def FreeOf (s : State) (slot : Nat) : Prop := ∀ h, s.inHand = some h → h.slot ≠ slot

theorem freeOf_none {s : State} (slot : Nat) (h : s.inHand = none) : FreeOf s slot := by intro x hx; simp [h] at hx

theorem test_witness_IdleStepPassesTime :
    (State.reset.pending = [] ∧ State.reset.ownSteps = []) ∧ (live.pending = [] ∧ live.ownSteps ≠ []) ∧
    live.ref.ntNow + 5 < 2 ^ 64 := by
  decide +kernel

theorem test_witness_TrunkPortGoesDown :
    live.portA.link = .up ∧
    (let s : State := { live with portA := { live.portA with timer := some 1000000000 } }
     s.portA.link = .up ∧ s.portA.timer = some 1000000000 ∧ s.linkLossTime * 1000000 ≤ 1000000000) ∧
    (live.station 17 = some station17 ∧ station17.state = .tracking ∧
      ¬ ∃ q, station17.mask.has q = true ∧
        (((live.setTrunk .a { live.trunk .a with link := .down, timer := none }).raise (trunkDownFlag .a)).trunk q).link = .up) ∧
    live.station 18 = none ∧ { live with stations := [] }.portA.link = .up := by
  refine ⟨rfl, by decide, ⟨rfl, rfl, ?_⟩, rfl, rfl⟩
  rintro ⟨q, h1, h2⟩
  cases q
  · exact absurd h2 (by decide)
  · exact absurd h1 (by decide)

theorem test_witness_SilenceAndReferenceTimers :
    (let s : State := { live with stations := [(17, { station17 with silence := some 30000000000 })] }
     ∃ st, s.station 17 = some st ∧ st.state = .tracking ∧ st.silence = some 30000000000 ∧ st.silenceLimit * 1000000000 ≤ 30000000000) ∧
    (let s := live.ref
     { s with markTimer := some 1500000000 }.markTimer = some 1500000000 ∧ s.state = .locked ∧
       { s with state := .acquiring }.state = .acquiring) ∧
    (let r : RefClock := { live.ref with state := .holdover, holdoverTimer := some 600000000000 }
     r.state = .holdover ∧ r.holdoverTimer = some 600000000000 ∧ r.holdoverLimit * 1000000000 ≤ 600000000000) ∧
    (∀ x : StoreState, { live with failureSignal := true, store := x }.failureSignal = true ∧
      (x = .ready ∨ x = .starved ∨ x = .idle ∨ x = .suspended)) ∧
    (signalled.failureSignal = true ∧ (∃ t, exec .withholdSuspension signalled = .next t) ∧ signalled.ref.state = .failed ∧
      signalled.eLo = some 0 ∧
      (0 + 1) * (signalled.plan.epochLength * 1000000) + signalled.plan.hold * 1000000 ≤ signalled.ref.ntNow) ∧
    (∃ p e rest, Current (taking signalled 0x16 []) p e rest 0x16 0 ∧ (taking signalled 0x16 []).mustWait e = false ∧
      (taking signalled 0x16 []).failureSignal = true) ∧ directiveCode .storeResume = some (0x16, 0) := by
  refine ⟨⟨_, rfl, rfl, rfl, by decide⟩, by decide, by decide, ?_, ⟨rfl, exec_next _ _, rfl, rfl, by decide⟩,
    ⟨_, _, _, ⟨rfl, rfl, rfl, rfl⟩, rfl, rfl⟩, rfl⟩
  intro x
  cases x <;> decide

theorem test_witness_LookupFindsMappedStation :
    let m : List MapEntry := [{ code := 1, slot := 5 }, { code := 9, slot := 0 }]
    m.Pairwise (fun x y => x.code < y.code) ∧ m.length ≤ 192 ∧ lookupStation m 9 = some 0 ∧ lookupStation m 2 = none := by
  decide

/-- The packet of the witnesses, and its station in the ways that end its handling. -/
def packet5 : List Byte := packet17 5 100000

theorem test_witness_TakeAndAcceptanceChecks :
    (let bs := withCheck ([0x51, 0, 4, 0, 1, 0, 0] ++ packet5.drop 7)
     MapInv (fed bs station17) ∧ TakesPacket (fed bs station17) .a bs ∧
       ∀ x ∈ (fed bs station17).map, x.code ≠ (readStationPacket bs).code) ∧
    (∀ st ∈ [{ station17 with mask := { a := false, b := true } }, { station17 with state := .quarantined },
        { station17 with channels := (freshStation 0 station17.mask 1).channels }],
      MapInv (fed packet5 st) ∧ TakesPacket (fed packet5 st) .a packet5 ∧
      (∃ x ∈ (fed packet5 st).map, x.code = (readStationPacket packet5).code ∧ (fed packet5 st).station x.slot = some st) ∧
      (st.mask.has .a = false ∨ st.mask.has .a = true ∧ st.state = .quarantined ∨
        st.mask.has .a = true ∧ st.state ≠ .quarantined ∧ ∀ c, ¬ FormatOk st (readStationPacket packet5) c)) := by
  refine ⟨⟨mapInv_one rfl rfl rfl, fed_takes _ _, by decide⟩, ?_⟩
  intro st hst
  have hc : st.code = 0x4C21 := by
    simp only [List.mem_cons, List.not_mem_nil, or_false] at hst
    rcases hst with rfl | rfl | rfl <;> rfl
  refine ⟨mapInv_one rfl rfl hc, fed_takes _ _, ⟨_, List.mem_singleton.2 rfl, by decide, rfl⟩, ?_⟩
  simp only [List.mem_cons, List.not_mem_nil, or_false] at hst
  rcases hst with rfl | rfl | rfl
  · exact Or.inl rfl
  · exact Or.inr (Or.inl ⟨rfl, rfl⟩)
  · refine Or.inr (Or.inr ⟨rfl, by decide, ?_⟩)
    intro c h
    have := h.configured
    fin_cases c <;> exact absurd rfl this

/-- The channel of the packet passes the channel and format check. -/
theorem formatOk17 : FormatOk station17 (readStationPacket packet5) 0 := ⟨by decide, by decide, by decide, by decide⟩

theorem test_witness_SequenceFilterOutcome :
    ∀ w ∈ ([none, some { high := 5, marks := 0x80000000, staleRun := 0 }, some { high := 40, marks := 0x80000000, staleRun := 0 }]
      : List (Option SeqWindow)),
      let st : Station :=
        { station17 with channels := { station17.channels with q0 := { station17.channels.q0 with window := w } } }
      MapInv (fed packet5 st) ∧ TakesPacket (fed packet5 st) .a packet5 ∧
      { code := 0x4C21, slot := 17 } ∈ (fed packet5 st).map ∧ 0x4C21 = (readStationPacket packet5).code ∧
      (fed packet5 st).station 17 = some st ∧ st.mask.has .a = true ∧ st.state ≠ .quarantined ∧
      FormatOk st (readStationPacket packet5) 0 ∧
      (judge (readStationPacket packet5).restart w (readStationPacket packet5).sequence).1 =
        (match w with
        | none => .accepted
        | some x => if x.high = 5 then .duplicate else .stale) := by
  intro w hw
  refine ⟨mapInv_one rfl rfl rfl, fed_takes _ _, List.mem_singleton.2 rfl, by decide, rfl, rfl, StationState.noConfusion,
    ⟨formatOk17.channel, formatOk17.configured, formatOk17.count, formatOk17.length⟩, ?_⟩
  simp only [List.mem_cons, List.not_mem_nil, or_false] at hw
  rcases hw with rfl | rfl | rfl <;> decide

theorem test_witness_ReceivedMapMovesForward :
    ((0 : BitVec 16).toNat + 65536 - (65535 : BitVec 16).toNat) % 65536 = 1 ∧
    ((32766 : BitVec 16).toNat + 65536 - (65535 : BitVec 16).toNat) % 65536 = 32767 ∧ (0 : Nat) < 32 ∧ (31 : Nat) < 32 ∧
    ((9 : BitVec 16).toNat + 65536 - (40 : BitVec 16).toNat) % 65536 = 65505 ∧
    ((39 : BitVec 16).toNat + 65536 - (40 : BitVec 16).toNat) % 65536 = 65535 ∧
    (0x80000000 : BitVec 32).getLsbD 0 = false ∧ (0x80000000 : BitVec 32).getLsbD 30 = false := by
  simp

theorem test_witness_StationTimeToNetworkTime :
    let c : Correction :=
      { offset := -500000000000, drift := 250000, refTime := 90000000000, span := 86400, version := 0, isDefault := false,
        switch := none }
    c.InRange ∧ c.refTime < 2 ^ 48 ∧ 2 ^ 48 - 1 < 2 ^ 48 ∧
    ((3600000000 : Int) - 90000000000 = -((c.span : Int) * 1000000)) ∧ ((176400000000 : Int) - 90000000000 = (c.span : Int) * 1000000) ∧
    ((3599999999 : Int) - 90000000000 < -((c.span : Int) * 1000000)) ∧
    ((176400000001 : Int) - 90000000000 > (c.span : Int) * 1000000) ∧ netSum c 0 < 0 ∧ 0 ≤ netSum c 176400000001 := by
  refine ⟨⟨by decide, by decide, by decide, by decide, by decide, by decide⟩, ?_⟩
  decide

theorem test_witness_DriftTermRounding :
    (86400000000 : Int).natAbs ≤ 86400000000 ∧ (-250000 : Int).natAbs ≤ 250000 ∧
    2 * (driftTerm 500000 (-1) * 1000000 - 500000 * (-1)).natAbs = 1000000 ∧ (0 : Int) * 5 = 0 := by
  decide

theorem test_witness_GlobalSlotAndResidual : (1 ≤ 1 ∧ 1 ≤ 10) ∧ 1 ≤ 10 ∧ 10 ≤ 10 := by decide

theorem test_witness_SampleConversion :
    1 < (readStationPacket packet5).count ∧ [SampleWord.bits16, .bits24, .bits32].map SampleWord.width = [2, 3, 4] := by
  decide

theorem test_witness_RecordSelectionAndFlags :
    let st : Station :=
      { station17 with
        current := { Correction.default with switch := some 8 }, previous := some { record := Correction.default, eSw := 1 } }
    st.previous = some { record := Correction.default, eSw := 1 } ∧ st.current.switch = some 8 ∧ station17.previous = none := by
  decide

/-- A packet in hand of a channel of station 17: two samples from a global slot. -/
def hand (c : Fin 4) (gs : Nat) : InHand :=
  { port := .a, slot := 17, channel := c, globalSlot := gs, residual := 7, quality := 1, samples := [5, 6] }

theorem test_witness_HandOffRefusedOrPlaced :
    ∀ x : StoreState,
      let s : State := { live with inHand := some (hand 0 1), store := x }
      s.inHand = some (hand 0 1) ∧ s.station (hand 0 1).slot = some station17 ∧
      ((s.store = .ready ∨ s.store = .starved) ∨ s.store = .idle ∨ s.store = .suspended) := by
  intro x
  refine ⟨rfl, rfl, ?_⟩
  cases x <;> decide

theorem test_witness_DroppedSamplesAreCounted :
    let p := hand 0 0
    1 ≤ live.plan.windowDepth ∧ live.station p.slot = some station17 ∧
    9 / 10 < 1 ∧ 0 + live.plan.windowDepth - 1 < 40 / 10 ∧
    (30 / 10 ≤ 0 + live.plan.windowDepth - 1 ∧ ∀ i r, (i, r) ∈ live.records → ¬ (r.state = .opened ∧ r.number = 30 / 10)) ∧
    openRecord live.records (0 / 10) = some (0, epoch0) ∧ assocGet live.records 0 = some epoch0 ∧
    assocGet (epoch0.segment 17 1).pages (0 / 64) = none ∧
    (assocGet (epoch0.segment 17 0).pages (0 / 64) ≠ none ∧ (epoch0.segment 17 0).filled.getLsbD (0 % 10) = true) := by
  refine ⟨by decide, rfl, by decide, by decide, ⟨by decide, ?_⟩, by decide +kernel, rfl, by decide +kernel, by decide +kernel⟩
  intro i r h
  have : (i, r) = (0, epoch0) := List.mem_singleton.1 h
  cases this
  decide

theorem test_witness_PlacedSampleIsStored :
    live.eLo = some 0 ∧ 0 ≤ 9 / 10 ∧ 9 / 10 ≤ 0 + live.plan.windowDepth - 1 ∧ openRecord live.records (9 / 10) = some (0, epoch0) ∧
    assocGet live.records 0 = some epoch0 ∧ 9 % 10 < 512 ∧
    ((epoch0.segment 17 0).filled.getLsbD (9 % 10) = false ∧ assocGet (epoch0.segment 17 0).pages (9 % 10 / 64) = some 0) ∧
    ((epoch0.segment 17 1).filled.getLsbD (9 % 10) = false ∧ assocGet (epoch0.segment 17 1).pages (9 % 10 / 64) = none ∧
      live.store = .ready ∧ live.freePages.head? = some 1) := by
  decide +kernel

theorem test_witness_HandOffStoresOnlyPlacedSamples :
    let s : State := { live with inHand := some (hand 0 1) }
    (∃ t, exec .handOff s = .next t) ∧ s.store = .ready ∧
    storeAddresses (hand 0 1) (s.channelN 17 0) 1 (hand 0 1).samples s = [4, 8] := by
  refine ⟨exec_next _ _, rfl, ?_⟩
  decide +kernel

theorem test_witness_MarksOutsideLocked :
    State.reset.ref.state = .free ∧ { live.ref with state := .failed }.state = .failed ∧
    (let r := (marked State.reset 0 (.valid 1700000000)).ref
     r.state = .acquiring ∧ r.lastSecond = some 1700000000 ∧ r.goodCount ≤ 2 ∧ r.rejectCount = 0) ∧
    (let r : RefClock := { live.ref with state := .holdover, ntNow := 8000015000 }
     r.state = .holdover ∧ (r.ntNow + 500000000) / 1000000000 = 8 ∧
     ((8 : Int) * 1000000000 - (r.ntNow : Int)).natAbs ≤ 100 * r.lockWindow * 1000 ∧ 9 ≠ (r.ntNow + 500000000) / 1000000000) := by
  decide

theorem test_witness_MarkInLocked :
    let r := live.ref
    r.state = .locked ∧ r.lastSecond = some 3 ∧ 3 < 2 ^ 32 ∧ (3 : Nat) ≠ 4294967295 ∧
    ((4 : Int) * 1000000000 - (3999990000 : Int)).natAbs = r.lockWindow * 1000 ∧ r.rejectCount < 2 ∧
    2 ≤ { r with rejectCount := 2 }.rejectCount ∧ 4294967295 < 2 ^ 32 ∧ (9 : BitVec 32).toNat ≠ 3 + 1 := by
  decide

theorem test_witness_FlagsAndNotices :
    hasFlag (1 : FlagSet) .refChange = true ∧ (hasFlag live.flags .refChange = false ∧ hasFlag live.noticeMask .refChange = false) ∧
    (hasFlag { live with noticeMask := 1 }.noticeMask .refChange = true ∧ live.noticeSlot = none) ∧
    { live with noticeSlot := some 2 }.noticeSlot = some 2 ∧
    Meets (taking live 0x11 [0x80, 0x01]) 0x11 2 (fun _ => True) ∧ Meets (taking live 0x12 [0x0F, 0xFF]) 0x12 2 (fun _ => True) := by
  refine ⟨by decide, by decide, by decide, rfl, ?_, ?_⟩ <;> exact meets_taking rfl rfl trivial

/-! ### The live part meets every invariant -/

theorem mapInv_live : MapInv live := mapInv_one rfl rfl rfl

theorem stations_live {slot : Nat} {st : Station} (h : (slot, st) ∈ live.stations) : slot = 17 ∧ st = station17 := by
  have : (slot, st) = (17, station17) := List.mem_singleton.1 h
  exact Prod.mk.inj this

theorem records_live {i : Nat} {r : EpochRecord} (h : (i, r) ∈ live.records) : i = 0 ∧ r = epoch0 := by
  have : (i, r) = (0, epoch0) := List.mem_singleton.1 h
  exact Prod.mk.inj this

theorem capacityInv_live : CapacityInv live := by
  refine ⟨by decide, by decide, by decide, by decide, by decide, ?_, by decide, by decide⟩
  intro p h
  cases h

theorem counterInv_live : CounterInv live := by
  refine ⟨?_, ?_, ?_, ?_, ?_⟩
  · show ∀ c ∈ live.portA.counterList, c ≤ counterMax
    decide
  · show ∀ c ∈ live.portB.counterList, c ≤ counterMax
    decide
  · decide
  · decide
  · intro slot st h
    rw [(stations_live h).2]
    decide

theorem timerInv_live : TimerInv live := by
  refine ⟨?_, ?_, ?_, ?_, ?_, ?_, ?_⟩
  · exact ⟨by intro e h; cases h; decide, by decide⟩
  · exact ⟨by (intro e h; cases h), by decide⟩
  · exact ⟨by (intro e h; cases h), by decide⟩
  · exact ⟨by (intro e h; cases h), by decide⟩
  · exact ⟨by intro e h; cases h; decide, by decide⟩
  · exact ⟨by (intro e h; cases h), by decide⟩
  · intro slot st h
    rw [(stations_live h).2]
    exact ⟨by intro e h; cases h; decide, by decide⟩

theorem refInv_live : RefInv live := by
  refine ⟨by decide, ?_, by decide, by decide, by decide, by decide, by decide, by decide⟩
  intro m h
  cases h
  decide

theorem inRange_default : Correction.default.InRange :=
  ⟨by decide, by decide, by decide, by decide, by decide, by intro t h; cases h⟩

theorem correctionInv_live : CorrectionInv live := by
  refine ⟨by decide, ?_, ?_, ?_⟩ <;> intro slot st h <;> rw [(stations_live h).2]
  · exact inRange_default
  · intro c hc; cases hc
  · intro c hc; cases hc

theorem planInv_live : PlanInv live := by
  refine ⟨by unfold Plan.inRange; decide, by decide, ?_⟩
  intro slot st h
  rw [(stations_live h).2]
  decide

theorem storeInv_live : StoreInv live := by
  refine ⟨by unfold Plan.inRange; decide, by decide, ?_, by decide, ?_, ?_, ?_, by decide, ?_, fun h => absurd h (by decide), ?_⟩
  · intro i r h
    rw [(records_live h).1]
    decide
  · intro lo h
    cases h
    exact ⟨by decide +kernel, by decide +kernel⟩
  · intro h; cases h
  · intro i
    simp only [live, assocGet]
    constructor
    · intro h; cases h
    · rintro ⟨r, h, hr⟩
      split at h
      · cases h; cases hr
      · cases h
  · intro lo h e he; cases he
  · intro i
    constructor
    · rintro ⟨r, h, hr⟩
      simp only [live, assocGet] at h
      split at h
      · cases h; cases hr
      · cases h
    · rintro ⟨e, h, _⟩; cases h

/-- Whatever the reference. -/
theorem storeInv_at (clock : RefClock) : StoreInv { live with ref := clock } where
  plan := storeInv_live.plan
  sorted := storeInv_live.sorted
  sixteen := storeInv_live.sixteen
  present := storeInv_live.present
  window := storeInv_live.window
  noWindow := storeInv_live.noWindow
  queued := storeInv_live.queued
  rising := storeInv_live.rising
  below := storeInv_live.below
  signal h := absurd h (by simp [live, State.reset])
  emitting := storeInv_live.emitting

theorem pageInv_live : PageInv live := by
  refine ⟨by decide, by decide, ?_, ?_, ?_⟩
  · intro i r h
    rw [(records_live h).2]
    decide
  · intro i r h k g hg
    rw [(records_live h).2] at hg
    have : (k, g) = (68, segment17) := List.mem_singleton.1 hg
    rw [(Prod.mk.inj this).2]
    decide
  · have h0 : live.namedPages = [0] := by decide +kernel
    have h1 : pagesFrom Config.pages 0 = (0 : PageNo) :: pagesFrom 16383 1 := rfl
    rw [h0, h1]
    exact List.perm_append_comm

theorem segmentInv_live : SegmentInv live := by
  refine ⟨?_, by intro p h; cases h⟩
  intro i r h _ slot c
  rw [(records_live h).2]
  by_cases hk : segmentKey slot c = 68
  · have hs : slot = 17 := by unfold segmentKey at hk; omega
    have hc : c = 0 := by apply Fin.ext; show c.val = 0; unfold segmentKey at hk; omega
    subst hs hc
    refine ⟨by decide +kernel, ?_⟩
    have hm : ∀ k, segment17.filled.getLsbD k = true → k = 0 := by
      intro k h
      by_contra hne
      have : (1 : BitVec 512).getLsbD k = false := by simp [hne]
      exact absurd h (by simp [segment17, hne])
    refine ⟨by decide +kernel, ?_, by decide +kernel, by decide +kernel⟩
    intro k h
    have := hm k h
    subst this
    exact ⟨by decide +kernel, by decide +kernel⟩
  · have he : epoch0.segment slot c = Segment.empty 0 := by
      simp [EpochRecord.segment, epoch0, assocGet, hk]
    rw [he]
    refine ⟨?_, ?_⟩
    · unfold State.channelN State.station
      simp only [live, assocGet]
      by_cases h17 : slot = 17
      · subst h17
        have : c ≠ 0 := by rintro rfl; exact hk rfl
        fin_cases c
        · exact absurd rfl this
        all_goals rfl
      · simp [h17, Segment.empty]
    · refine ⟨by decide +kernel, ?_, by simp [Segment.empty], by simp [Segment.empty]⟩
      intro k h
      simp [Segment.empty] at h

theorem test_witness_MapStaysOneToOne : MapInv live ∧ ∃ t, step live = .next t := ⟨mapInv_live, step_next _⟩

theorem test_witness_QueuesCountersAndMemoryStaySound :
    CapacityInv live ∧ CounterInv live ∧ Memory.wf live.memory = true ∧ ∃ t, step live = .next t :=
  ⟨capacityInv_live, counterInv_live, by decide, step_next _⟩

theorem test_witness_TimersRunInTheirStates : TimerInv live ∧ ∃ t, step live = .next t := ⟨timerInv_live, step_next _⟩

theorem test_witness_ReferenceStateStaysConsistent : RefInv live ∧ ∃ t, step live = .next t := ⟨refInv_live, step_next _⟩

theorem test_witness_RecordsAndPlanStayConsistent : CorrectionInv live ∧ PlanInv live ∧ ∃ t, step live = .next t :=
  ⟨correctionInv_live, planInv_live, step_next _⟩

theorem test_witness_WindowAndQueueStayConsistent : StoreInv live ∧ ∃ t, step live = .next t := ⟨storeInv_live, step_next _⟩

theorem test_witness_EveryPageStaysInOnePlace : PageInv live ∧ ∃ t, step live = .next t := ⟨pageInv_live, step_next _⟩

theorem test_witness_OpenSegmentsStaySound :
    PlanInv live ∧ StoreInv live ∧ PageInv live ∧ SegmentInv live ∧ ∃ t, step live = .next t :=
  ⟨planInv_live, storeInv_live, pageInv_live, segmentInv_live, step_next _⟩

theorem test_witness_CommandsKeepWhatTheyDoNotSet :
    (∃ t, exec .grant live = .next t) ∧ (∀ straps, Instr.grant ≠ .powerOnReset straps) ∧ (∀ m, Instr.grant ≠ .timeMark m) := by
  refine ⟨exec_next _ _, ?_, ?_⟩ <;> intro x h <;> cases h

/-! ### Window, Emitter, links -/

/-- At, and just before, the close time of epoch 0; and Idle. -/
theorem test_witness_CloseEvaluationMovesWindow :
    (StoreInv live ∧ assocSorted live.stations = true ∧ live.eLo = some 0 ∧ live.failureSignal = false ∧
      (0 + 1) * (live.plan.epochLength * 1000000) + live.plan.hold * 1000000 = live.ref.ntNow) ∧
    (StoreInv { live with ref := { live.ref with ntNow := 2999999999 } } ∧
      2999999999 < (0 + 1) * (live.plan.epochLength * 1000000) + live.plan.hold * 1000000) ∧
    ({ live with store := .idle } : State).store = .idle :=
  ⟨⟨storeInv_live, by decide, rfl, rfl, by decide⟩, ⟨storeInv_at _, by decide⟩, rfl⟩

/-- R55: a store that a Withhold signal is still to suspend, resumed: STORE-WITHHELD is set, and it runs Ready. -/
theorem test_resume_after_withhold_signal :
    let t := after .storeResume (taking signalled 0x16 [])
    t.store = .ready ∧ t.failureSignal = false ∧ hasFlag t.flags .storeWithheld = true ∧
    (after .withholdSuspension t).store = .ready := by
  decide

/-- R55: the signal at a Ready store raises STORE-WITHHELD although STORE-SUSPEND comes before the suspension's own step. -/
theorem test_suspend_after_withhold_signal :
    hasFlag (after .storeSuspend (taking signalled 0x15 [])).flags .storeWithheld = true ∧
    formed .storeSuspend (taking signalled 0x15 []) = [1, 0, 0] := by
  decide

theorem test_witness_EpochOpensAndCloses : assocSorted live.stations = true ∧ assocGet live.records 0 = some epoch0 := by
  exact ⟨by decide, rfl⟩

/-- An Emitting record of epoch 0, of the sections of slots 17 and 18 in two fragments. -/
def emission (next : Nat) : Emission := { record := 0, plan := [[17], [18]], next := next }

/-- Epoch 0 closed, with the sections of slot 17 as it was and of slot 18 with nothing. -/
def closed0 : EpochRecord :=
  { epoch0 with
    state := .closed, refAtClose := some .locked, storeAtClose := some .ready
    sections := some [(17, { code := 0x4C21, state := .tracking }), (18, { code := 5, state := .configured })] }

/-- The live part with epoch 0 closed and waiting, one stall limit into a hold. -/
def stalled : State := { live with records := [(0, closed0)], closedQueue := [0], hold := .held, stallTimer := some 10000000000 }

theorem test_witness_StallExpiryGivesUpOneEpoch :
    (stalled.stallTimer = some 10000000000 ∧ stalled.stallLimit * 1000000000 = 10000000000) ∧
    { stalled with emitter := .building (emission 1) }.emitter = .building (emission 1) ∧
    (∀ fate ∈ [Fate.goesOn, .restarted], { stalled with emitter := .sending (emission 0) fate }.emitter = .sending (emission 0) fate ∧
      fate ≠ .abandoned) ∧
    (emission 0).next + 1 < (emission 0).plan.length ∧
    (emission 1).plan.length = (emission 1).next + 1 ∧ (stalled.emitter = .idle ∧ stalled.closedQueue = [0]) ∧
    { stalled with closedQueue := [] }.closedQueue = [] ∧ assocGet stalled.records 0 = some closed0 ∧
    (stalled.eLo = some 0 ∧ stalled.store ≠ .idle ∧ ({ stalled with records := [] } : State).openCount < stalled.plan.windowDepth ∧
      0 < 16) ∧
    { stalled with store := .idle }.store = .idle := by
  refine ⟨by decide, rfl, fun fate h => ⟨rfl, ?_⟩, by decide, by decide, by decide, rfl, rfl, by decide, rfl⟩
  revert fate
  decide

theorem test_witness_FragmentPlanAndFrame :
    (∀ slot c, (closed0.segment slot c).n ≤ 512) ∧ closed0.sectionSlots ≠ [] ∧ epoch0.sectionSlots = [] ∧
    (∀ slot ∈ (emission 1).slotsOf, slot ∈ closed0.sectionSlots) ∧ (fragmentPayload live.memory closed0 [18]).length < 65536 ∧
    closed0.number < 2 ^ 48 ∧ closed0.start < 2 ^ 64 ∧ (emission 1).next < 256 ∧ closed0.skipped < 65536 ∧
    (emission 1).slotsOf.length < 256 ∧ closed0.epochLength < 65536 ∧ closed0.refAtClose = some .locked ∧
    closed0.storeAtClose = some .ready ∧
    ([[0, 3], [4]] : List (List Nat))[0]? = some [0, 3] ∧ packSections [] 0 [(0, 1264), (3, 8080), (4, 8080)] = [[0, 3], [4]] := by
  refine ⟨?_, by decide, by decide, by decide, by decide +kernel, by decide, by decide, by decide, by decide, by decide, by decide,
    rfl, rfl, rfl, by decide⟩
  intro slot c
  unfold EpochRecord.segment
  simp only [closed0, epoch0, assocGet]
  split
  · exact Nat.le_of_ble_eq_true rfl
  · exact Nat.zero_le _

theorem test_witness_SectionContents :
    (segment17.filled.getLsbD 0 = true ∧ assocGet segment17.pages (0 / 64) = some 0) ∧ segment17.filled.getLsbD 1 = false ∧
    (Segment.empty 0).n = 0 ∧ (1 ≤ segment17.n ∧ segment17.n ≤ 512 ∧ segment17.fill ≤ segment17.n ∧ segment17.fill ≠ 0 ∧ 9 < segment17.n) ∧
    (segment17.residual = some 7 ∧ (-500000000 : Int) ≤ 7 ∧ (7 : Int) ≤ 499999999) ∧ (Segment.empty 1).fill = 0 ∧
    ((2000 : Nat) = 2000 ∧ 1 ≤ 8 ∧ 8 ≤ 10 ∧ samplesPerEpoch 8 2000 = some 500) ∧
    (assocGet (closed0.sections.getD []) 17 = some { code := 0x4C21, state := .tracking } ∧ 17 < 192 ∧ 0x4C21 < 65536) := by
  refine ⟨by decide +kernel, by decide +kernel, rfl, by decide, by decide, rfl, by decide, by decide⟩

/-- The live part with a frame of a source in transmission. -/
def sending (src : TxSource) : State := { live with transmitting := some { source := src, bytes := [1] } }

theorem test_witness_FragmentCompletionFreesPages :
    ((sending .own).transmitting = some { source := .own, bytes := [1] }) ∧
    (emission 0).next + 1 < (emission 0).plan.length ∧ (emission 1).plan.length ≤ (emission 1).next + 1 ∧
    (∀ fate, { sending .own with emitter := .sending (emission 0) fate }.emitter = .sending (emission 0) fate) ∧
    Fate.abandoned ≠ .goesOn ∧ Fate.restarted ≠ .goesOn ∧ stalled.store ≠ .starved ∧
    assocGet stalled.records (emission 0).record = some closed0 ∧ (emission 0).slotsOf.Nodup ∧ (emission 0).slotsOf ≠ [] := by
  refine ⟨rfl, by decide, by decide, fun _ => rfl, by decide, by decide, by decide, rfl, by decide, by decide⟩

/-- A directive packet to a destination, with no entries. -/
def directive (dest hop : Byte) : List Byte := withCheck [0x53, 0, 0, dest, hop, 0, 1, 0, 0, 0]

/-- The intake checks of R152. -/
def soundPacket (bs : List Byte) : Prop :=
  12 ≤ bs.length ∧ bs.length ≤ 512 ∧ fieldAt bs 0 1 = 0x53 ∧ fieldAt bs 1 2 = bs.length - 12 ∧
  onesAdd (checkSum 0 (bs.take (bs.length - 2))) (fieldAt bs (bs.length - 2) 2) = 0xFFFF

theorem test_witness_DirectivePacketRouting :
    ¬ soundPacket [1] ∧ (soundPacket (directive 3 1) ∧ fieldAt (directive 3 1) 3 1 % 32 = 3 ∧ live.unitAddress.toNat = 0) ∧
    (soundPacket (directive 0 3) ∧ fieldAt (directive 0 3) 3 1 % 32 = live.unitAddress.toNat) ∧
    (soundPacket (directive 31 0) ∧ fieldAt (directive 31 0) 3 1 % 32 = 31) ∧ live.inbound.length < 2 ∧
    2 ≤ { live with inbound := [[1], [2]] }.inbound.length := by
  unfold soundPacket
  decide

theorem test_witness_ForwardedPacket :
    { live.chain with outgoing := some [1] }.outgoing = some [1] ∧ 12 ≤ (directive 3 1).length ∧ 9 + 2 < (directive 3 1).length ∧
    (9 : Nat) ≠ 4 := by
  decide

theorem test_witness_HoldReleaseAndCompletions :
    live.hold = .notHeld ∧ stalled.hold = .held ∧
    ∀ src : TxSource, (sending src).transmitting = some { source := src, bytes := [1] } :=
  ⟨rfl, rfl, fun _ => rfl⟩

theorem test_witness_ChainPortArrivalsAndLoss :
    let s : State := { live with chain := { ChainPort.reset with link := .up, timer := some 1000000000 } }
    s.chain.link = .up ∧ live.chain.link = .down ∧ s.chain.timer = some 1000000000 ∧ s.linkLossTime * 1000000 = 1000000000 := by
  decide

theorem test_witness_GrantFollowsPriority :
    stalled.hold = .held ∧ (sending .answer).transmitting ≠ none ∧
    (let s : State := { stalled with hold := .notHeld, stallTimer := none }
     s.hold = .notHeld ∧ s.transmitting = none ∧ { s with answerQueue := [[1]] }.answerQueue = [[1]] ∧
     (s.answerQueue = [] ∧ { s with noticeSlot := some 1 }.noticeSlot = some 1) ∧
     (s.noticeSlot = none ∧ ({ s.chain with buffer := [[2]] } : ChainPort).buffer = [[2]] ∧
       { s with nextData := .passThrough }.nextData = .passThrough) ∧
     (s.chain.buffer = [] ∧ s.nextData = .own ∧ s.emitter = .idle ∧ s.closedQueue = [0] ∧ assocGet s.records 0 = some closed0)) ∧
    ({ live with emitter := .building (emission 1) }.emitter = .building (emission 1) ∧
      assocGet live.records (emission 1).record = some epoch0) ∧
    (live.emitter = .idle ∧ live.closedQueue = [] ∧ live.chain.buffer = []) := by
  decide +kernel

theorem test_witness_CheckFieldsDetectDamage :
    checkPasses [0x12, 0x34, 0x56, 0x97, 0xCB] = true ∧ ([0x12, 0x34, 0x56, 0x97, 0xCB] : List Byte)[1]? = some 0x34 ∧
    (0x35 : Byte) ≠ 0x34 ∧ (65535 : Nat) < 65536 ∧ onesAdd 65535 65535 = 65535 ∧ onesAdd 65535 1 = 1 := by
  decide

/-! ### Directives -/

theorem test_witness_PacketBeginsWhenAnswerHasRoom :
    let packet := withCheck [0x53, 0, 2, 0, 0, 0, 1, 1, 0, 0, 1, 0]
    live.agent.progress = none ∧ { live with inbound := [packet] }.inbound = [packet] ∧
    4 ≤ { live with answerQueue := [[1], [1], [1], [1]] }.answerQueue.length ∧ live.answerQueue.length < 4 ∧
    soundEntries (withCheck [0x53, 0, 1, 0, 0, 0, 1, 1, 0, 0, 1]) = none ∧ soundEntries (directive 0 0) = some [] ∧
    soundEntries packet = some [{ code := 1, params := [] }] := by
  decide

theorem test_witness_EntriesAndAnswers :
    ∃ p e rest, (taking live 0x7E []).agent.progress = some p ∧ p.todo = e :: rest ∧ (e.code.toNat = 0 ∨ 0x17 < e.code.toNat) ∧
      directiveCode .identify = some (0x01, 0) ∧
      ∃ p' e' rest', (taking live 0x01 [5]).agent.progress = some p' ∧ p'.todo = e' :: rest' ∧ e'.code.toNat = 0x01 ∧
        e'.params.length ≠ 0 ∧ ({ p with stopOnRefusal := true } : Progress).stopOnRefusal = true ∧ rest = [] ∧ p.stopOnRefusal = false ∧
        DirOutcome.unknown ≠ .done ∧ DirOutcome.unknown ≠ .noEffect ∧ DirOutcome.unknown ≠ .notRun ∧ [e] ≠ [] :=
  ⟨_, _, _, rfl, rfl, by decide, rfl, _, _, _, rfl, rfl, by decide, by decide, rfl, rfl, rfl, by decide, by decide, by decide,
    List.cons_ne_nil _ _⟩

/-- A packet of the agent with one entry left. -/
def waitingFor (code : Nat) (params : List Byte) : Progress :=
  { todo := [{ code := BitVec.ofNat 8 code, params := params }], formed := [], tag := 7, stopOnRefusal := false }

/-- The agent Held with that packet, a further packet waiting in the FIFO of port A, and a packet in hand or none. -/
def waiting (inHand : Option InHand) (code : Nat) (params : List Byte) : State :=
  { fed packet5 station17 with inHand := inHand, agent := .held (waitingFor code params) }

/-- R118: once the hand-off has ended the handling, RESTART is the one prompt step of the part; the packet in the FIFO is not taken first. -/
theorem test_restart_precedes_the_next_take :
    (waiting (some (hand 0 1)) 0x17 []).promptSteps = [.handOff] ∧ (waiting none 0x17 []).promptSteps = [.restart] ∧
    (after .restart (waiting none 0x17 [])).portA.fifo = [] := by
  decide +kernel

theorem test_witness_HeldDirectivesWait :
    ∀ i ∈ ([.unmapStation, .setChannel, .stageCorrection, .commitCorrection, .discardStaged, .quarantine, .unquarantine, .restart]
        : List Instr),
      ∃ code length params, directiveCode i = some (code, length) ∧
        (taking { live with inHand := some (hand 0 1) } code params).inHand = some (hand 0 1) ∧
        Meets (taking { live with inHand := some (hand 0 1) } code params) code length
          (fun ps => i = .restart ∨ fieldAt ps 0 1 = (hand 0 1).slot) ∧
        (waiting (some (hand 0 1)) code params).agent = .held (waitingFor code params) ∧
        (waiting (some (hand 0 1)) code params).inHand ≠ none ∧
        (waiting none code params).agent = .held (waitingFor code params) ∧ (waiting none code params).inHand = none ∧
        (waitingFor code params).todo ≠ [] := by
  intro i hi
  simp only [List.mem_cons, List.not_mem_nil, or_false] at hi
  rcases hi with rfl | rfl | rfl | rfl | rfl | rfl | rfl | rfl
  · exact ⟨_, _, [17], rfl, rfl, meets_taking rfl rfl (by decide), rfl, by decide, rfl, rfl, by decide⟩
  · exact ⟨_, _, [17, 0, 0, 0, 0], rfl, rfl, meets_taking rfl rfl (by decide), rfl, by decide, rfl, rfl, by decide⟩
  · exact ⟨_, _, 17 :: zeroBytes 24, rfl, rfl, meets_taking rfl rfl (by decide), rfl, by decide, rfl, rfl, by decide⟩
  · exact ⟨_, _, 17 :: zeroBytes 6, rfl, rfl, meets_taking rfl rfl (by decide), rfl, by decide, rfl, rfl, by decide⟩
  · exact ⟨_, _, [17], rfl, rfl, meets_taking rfl rfl (by decide), rfl, by decide, rfl, rfl, by decide⟩
  · exact ⟨_, _, [17], rfl, rfl, meets_taking rfl rfl (by decide), rfl, by decide, rfl, rfl, by decide⟩
  · exact ⟨_, _, [17], rfl, rfl, meets_taking rfl rfl (by decide), rfl, by decide, rfl, rfl, by decide⟩
  · exact ⟨_, _, [], rfl, rfl, meets_taking rfl rfl (by decide), rfl, by decide, rfl, rfl, by decide⟩

theorem test_witness_ReadingDirectives :
    Meets (taking live 0x01 []) 0x01 0 (fun _ => True) ∧ Meets (taking live 0x0F []) 0x0F 0 (fun _ => True) ∧
    Meets (taking live 0x10 []) 0x10 0 (fun _ => True) ∧
    Meets (taking live 0x0D [192]) 0x0D 1 (fun ps => 191 < fieldAt ps 0 1) ∧
    Meets (taking live 0x0D [191]) 0x0D 1 (fun ps => fieldAt ps 0 1 ≤ 191 ∧ live.station (fieldAt ps 0 1) = none) ∧
    Meets (taking live 0x0D [17]) 0x0D 1 (fun ps => fieldAt ps 0 1 ≤ 191 ∧ live.station (fieldAt ps 0 1) = some station17) ∧
    Meets (taking live 0x0E [5, 0, 0]) 0x0E 3 (fun ps => 4 < fieldAt ps 0 1) ∧
    Meets (taking live 0x0E [1, 0, 1]) 0x0E 3 (fun ps => fieldAt ps 0 1 = (if Port.b = Port.a then 0 else 1)) ∧
    Meets (taking live 0x0E [2, 0, 1]) 0x0E 3 (fun ps => fieldAt ps 0 1 = 2) ∧
    Meets (taking live 0x0E [3, 192, 0]) 0x0E 3 (fun ps => fieldAt ps 0 1 = 3 ∧ 191 < fieldAt ps 1 1) ∧
    Meets (taking live 0x0E [3, 191, 0]) 0x0E 3 (fun ps => fieldAt ps 0 1 = 3 ∧ live.station (fieldAt ps 1 1) = none) ∧
    Meets (taking live 0x0E [3, 17, 1]) 0x0E 3 (fun ps => fieldAt ps 0 1 = 3 ∧ live.station (fieldAt ps 1 1) = some station17) ∧
    Meets (taking live 0x0E [4, 0, 1]) 0x0E 3 (fun ps => fieldAt ps 0 1 = 4) := by
  refine ⟨?_, ?_, ?_, ?_, ?_, ?_, ?_, ?_, ?_, ?_, ?_, ?_, ?_⟩ <;> refine meets_taking rfl rfl ?_ <;> decide

theorem test_witness_ReportLayouts :
    (live.plan.epochLength < 65536 ∧ live.plan.windowDepth < 256 ∧ live.plan.hold < 65536 ∧ live.freePages.length < 65536 ∧
      live.records.length ≤ 16 ∧ live.pendingSkip < 65536) ∧
    (State.reset.eLo = none ∧ live.eLo = some 0) ∧ (live.closedQueue = [] ∧ stalled.closedQueue = [0] ∧ stalled.closedQueue.length < 256) ∧
    assocGet stalled.records 0 = some closed0 ∧ closed0.number < 2 ^ 48 ∧ live.emitter = .idle ∧ (emission 1).record = 0 ∧
    { stalled with emitter := .building (emission 1) }.emitter = .building (emission 1) ∧ (emission 1).next < 256 ∧
    { stalled with emitter := .sending (emission 1) .goesOn }.emitter = .sending (emission 1) .goesOn := by
  refine ⟨⟨by decide, by decide, by decide, ?_, by decide, by decide⟩, ⟨rfl, rfl⟩, ⟨rfl, rfl, by decide⟩, rfl, by decide, rfl, rfl,
    rfl, by decide, rfl⟩
  show (pagesFrom 16383 1).length < 65536
  decide +kernel

theorem test_witness_ReportLayouts_counters :
    ([0, 4294967295] : List Counter)[1]? = some 4294967295 ∧ (4294967295 : Nat) ≤ 4294967295 := by
  decide

theorem test_witness_ReportLayouts_station :
    station17.code < 65536 ∧ station17.silenceLimit = 30 ∧ (freshStation 5 station17.mask 30).silence = none ∧
    (∀ n ∈ [5, 29999999999, 30000000000],
      ({ station17 with silence := some n } : Station).silence = some n ∧ station17.silenceLimit ≤ 600) ∧
    (station17.channels.get 3).window = none ∧ (station17.channels.get 0).rate < 256 ∧
    ({ station17.channels.q0 with window := some (SeqWindow.first 5) } : Channel).window = some (SeqWindow.first 5) ∧
    (SeqWindow.first 5).staleRun < 256 ∧ station17.current.InRange ∧ station17.previous = none ∧ station17.staged = none ∧
    { station17 with staged := some Correction.default }.staged = some Correction.default ∧
    ({ station17 with previous := some { record := Correction.default, eSw := 2 ^ 48 - 1 } } : Station).previous =
      some { record := Correction.default, eSw := 2 ^ 48 - 1 } := by
  refine ⟨by decide, rfl, rfl, by decide, rfl, by decide, rfl, by decide, inRange_default, rfl, rfl, rfl, rfl⟩

theorem test_witness_PlanAndSamplesPerEpoch :
    (rateHz 10 * 500 = 500 * 1000 ∧ samplesPerEpoch 10 500 = some 500 ∧ samplesPerEpoch 0 250 = some 0) ∧
    (∀ params ∈ ([[0x03, 0xE9, 4, 0, 0, 0], [0x03, 0xE8, 1, 0, 0, 0], [0x03, 0xE8, 9, 0, 0, 0], [0x03, 0xE8, 2, 0x75, 0x31, 0],
        [0x03, 0xE8, 2, 0, 0, 2]] : List (List Byte)),
      Meets (taking live 0x02 params) 0x02 6 (fun ps =>
        ¬ ((fieldAt ps 0 2 = 250 ∨ fieldAt ps 0 2 = 500 ∨ fieldAt ps 0 2 = 1000 ∨ fieldAt ps 0 2 = 2000) ∧ 2 ≤ fieldAt ps 2 1 ∧
          fieldAt ps 2 1 ≤ 8 ∧ fieldAt ps 3 2 ≤ 30000 ∧ fieldAt ps 5 1 ≤ 1))) ∧
    (let idle : State := { live with store := .idle, eLo := none, records := [] }
     Meets (taking idle 0x02 [0, 250, 3, 0, 250, 1]) 0x02 6 (fun ps => fieldAt ps 3 2 = (fieldAt ps 2 1 - 2) * fieldAt ps 0 2) ∧
     Meets (taking idle 0x02 [0, 250, 3, 0, 251, 1]) 0x02 6 (fun ps => ¬ fieldAt ps 3 2 ≤ (fieldAt ps 2 1 - 2) * fieldAt ps 0 2) ∧
     (samplesPerEpoch 1 250 = none ∧ ({ station17.channels.q0 with rate := 1 } : Channel).rate = 1) ∧ idle.store = .idle ∧
     live.store ≠ .idle ∧ ∀ slot st, (slot, st) ∈ live.stations → ∀ c, (samplesPerEpoch (st.channels.get c).rate 500).isSome = true) := by
  refine ⟨by decide, ?_, ?_, ?_, by decide, rfl, by decide, ?_⟩
  · intro params h
    refine meets_taking rfl ?_ ?_ <;> simp only [List.mem_cons, List.not_mem_nil, or_false] at h <;>
      rcases h with rfl | rfl | rfl | rfl | rfl <;> decide
  · refine meets_taking rfl rfl ?_
    decide
  · refine meets_taking rfl rfl ?_
    decide
  · intro slot st h
    rw [(stations_live h).2]
    decide

theorem test_witness_SetReferenceAndSetLinks :
    (∀ params ∈ ([[0, 0, 0, 0, 0, 10], [3, 0xE9, 0, 0, 0, 10], [0, 1, 0, 0, 0, 9], [0, 1, 0, 1, 0x51, 0x81]] : List (List Byte)),
      Meets (taking live 0x03 params) 0x03 6 (fun ps =>
        ¬ (1 ≤ fieldAt ps 0 2 ∧ fieldAt ps 0 2 ≤ 1000 ∧ 10 ≤ fieldAt ps 2 4 ∧ fieldAt ps 2 4 ≤ 86400))) ∧
    (let held : State := { live with ref := { live.ref with state := .holdover, markTimer := none, holdoverTimer := some 10000000000 } }
     Meets (taking held 0x03 [3, 0xE8, 0, 0, 0, 10]) 0x03 6 (fun ps =>
       1 ≤ fieldAt ps 0 2 ∧ fieldAt ps 0 2 ≤ 1000 ∧ 10 ≤ fieldAt ps 2 4 ∧ fieldAt ps 2 4 ≤ 86400 ∧
       held.ref.state = .holdover ∧ fieldAt ps 2 4 * 1000000000 = 10000000000)) ∧
    Meets (taking live 0x03 [0, 1, 0, 1, 0x51, 0x80]) 0x03 6 (fun ps => fieldAt ps 2 4 = 86400 ∧ live.ref.state ≠ .holdover) ∧
    Meets (taking live 0x04 [0, 99, 1]) 0x04 3 (fun ps => ¬ 100 ≤ fieldAt ps 0 2) ∧
    Meets (taking live 0x04 [0, 100, 60]) 0x04 3 (fun ps =>
      100 ≤ fieldAt ps 0 2 ∧ fieldAt ps 0 2 ≤ 5000 ∧ 1 ≤ fieldAt ps 2 1 ∧ fieldAt ps 2 1 ≤ 60 ∧
      (∀ n, live.portA.timer = some n → n < fieldAt ps 0 2 * 1000000) ∧ (∀ n, live.portB.timer = some n → n < fieldAt ps 0 2 * 1000000) ∧
      (∀ n, live.chain.timer = some n → n < fieldAt ps 0 2 * 1000000) ∧
      ∀ n, live.stallTimer = some n → n < fieldAt ps 2 1 * 1000000000) := by
  refine ⟨?_, ?_, ?_, ?_, ?_⟩
  · intro params h
    refine meets_taking rfl ?_ ?_ <;> simp only [List.mem_cons, List.not_mem_nil, or_false] at h <;>
      rcases h with rfl | rfl | rfl | rfl <;> decide
  · refine meets_taking rfl rfl ?_
    decide
  · refine meets_taking rfl rfl ?_
    decide
  · refine meets_taking rfl rfl ?_
    decide
  · refine meets_taking rfl rfl ⟨by decide, by decide, by decide, by decide, ?_, ?_, ?_, ?_⟩
    · intro n h; cases h; decide
    all_goals (intro n h; cases h)

/-- Parameters of MAP-STATION. -/
def mapParams (code slot mask limit : Nat) : List Byte := beBytes 2 code ++ beBytes 1 slot ++ beBytes 1 mask ++ beBytes 2 limit

theorem test_witness_MapStationChecks :
    (∀ params ∈ [mapParams 5 192 3 30, mapParams 5 18 4 30, mapParams 5 18 3 0, mapParams 5 18 3 601],
      MapInv (taking live 0x05 params) ∧ Meets (taking live 0x05 params) 0x05 6 (fun ps =>
        ¬ (fieldAt ps 2 1 ≤ 191 ∧ ((fieldAt ps 3 1).testBit 0 = true ∨ (fieldAt ps 3 1).testBit 1 = true) ∧ 1 ≤ fieldAt ps 4 2 ∧
          fieldAt ps 4 2 ≤ 600))) ∧
    Meets (taking live 0x05 (mapParams 0x4C21 191 1 1)) 0x05 6 (fun ps => ∃ x ∈ live.map, x.code = fieldAt ps 0 2) ∧
    Meets (taking live 0x05 (mapParams 5 17 2 600)) 0x05 6 (fun ps =>
      ¬ (∃ x ∈ live.map, x.code = fieldAt ps 0 2) ∧ live.map.length < 192 ∧ (live.station (fieldAt ps 2 1)).isSome = true) ∧
    Meets (taking live 0x05 (mapParams 5 191 2 600)) 0x05 6 (fun ps =>
      fieldAt ps 2 1 ≤ 191 ∧ (fieldAt ps 3 1).testBit 1 = true ∧ fieldAt ps 4 2 ≤ 600 ∧
      ¬ (∃ x ∈ live.map, x.code = fieldAt ps 0 2) ∧ live.map.length < 192 ∧ live.station (fieldAt ps 2 1) = none) := by
  refine ⟨?_, ?_, ?_, ?_⟩
  · intro params h
    refine ⟨mapInv_one rfl rfl rfl, meets_taking rfl ?_ ?_⟩ <;> simp only [List.mem_cons, List.not_mem_nil, or_false] at h <;>
      rcases h with rfl | rfl | rfl | rfl <;> decide
  all_goals (refine meets_taking rfl rfl ?_; decide)

/-- The live part with station 17 Quarantined. -/
def quarantined : State := { live with stations := [(17, { station17 with state := .quarantined, silence := none })] }

theorem test_witness_UnmapStationEmptiesSlot :
    FreeOf (taking live 0x06 [17]) 17 ∧ Meets (taking live 0x06 [192]) 0x06 1 (fun ps => 191 < fieldAt ps 0 1) ∧
    Meets (taking live 0x06 [191]) 0x06 1 (fun ps => fieldAt ps 0 1 ≤ 191 ∧ live.station (fieldAt ps 0 1) = none) ∧
    Meets (taking live 0x06 [17]) 0x06 1 (fun ps => live.station (fieldAt ps 0 1) = some station17 ∧ live.store ≠ .idle) ∧
    station17.state ≠ .quarantined ∧
    (∃ st, Meets (taking quarantined 0x06 [17]) 0x06 1 (fun ps => quarantined.station (fieldAt ps 0 1) = some st) ∧
      st.state = .quarantined ∧ quarantined.store ≠ .idle ∧ assocSorted quarantined.records = true) ∧
    Meets (taking { live with store := .idle } 0x06 [17]) 0x06 1 (fun ps =>
      ({ live with store := .idle } : State).station (fieldAt ps 0 1) = some station17) := by
  refine ⟨freeOf_none _ rfl, ?_, ?_, ?_, by decide, ⟨_, meets_taking rfl rfl rfl, by decide, by decide, by decide⟩, ?_⟩
  all_goals (refine meets_taking rfl rfl ?_; decide)

theorem test_witness_SetChannelChecks :
    FreeOf (taking quarantined 0x07 [17, 0, 1, 0, 0]) 17 ∧
    (∀ params ∈ ([[192, 0, 0, 0, 0], [17, 4, 0, 0, 0], [17, 0, 11, 0, 0], [17, 0, 0, 3, 0], [17, 0, 0, 0, 2]] : List (List Byte)),
      Meets (taking live 0x07 params) 0x07 5 (fun ps =>
        ¬ (fieldAt ps 0 1 ≤ 191 ∧ fieldAt ps 1 1 ≤ 3 ∧ fieldAt ps 2 1 ≤ 10 ∧ fieldAt ps 3 1 ≤ 2 ∧ fieldAt ps 4 1 ≤ 1))) ∧
    Meets (taking live 0x07 [191, 3, 10, 2, 1]) 0x07 5 (fun ps => fieldAt ps 0 1 ≤ 191 ∧ live.station (fieldAt ps 0 1) = none) ∧
    (station17.state = .tracking ∧ live.store = .ready) ∧
    (samplesPerEpoch 10 live.plan.epochLength).isSome = false ∧ (samplesPerEpoch 1 live.plan.epochLength).isSome = true ∧
    (∃ st, Meets (taking quarantined 0x07 [17, 0, 1, 0, 0]) 0x07 5 (fun ps =>
        quarantined.station (fieldAt ps 0 1) = some st ∧ (0 : Fin 4).val = fieldAt ps 1 1 ∧ (st.channels.get 0).rate ≠ fieldAt ps 2 1) ∧
      st.state = .quarantined ∧ quarantined.store ≠ .idle ∧ assocSorted quarantined.records = true) ∧
    (∃ st, Meets (taking quarantined 0x07 [17, 0, 2, 1, 1]) 0x07 5 (fun ps =>
        quarantined.station (fieldAt ps 0 1) = some st ∧ (st.channels.get 0).rate = fieldAt ps 2 1)) := by
  refine ⟨freeOf_none _ rfl, ?_, ?_, by decide, by decide, by decide, ?_, ?_⟩
  · intro params h
    refine meets_taking rfl ?_ ?_ <;> simp only [List.mem_cons, List.not_mem_nil, or_false] at h <;>
      rcases h with rfl | rfl | rfl | rfl | rfl <;> decide
  · refine meets_taking rfl rfl ?_
    decide
  · exact ⟨_, meets_taking rfl rfl ⟨rfl, by decide, by decide⟩, by decide, by decide, by decide⟩
  · exact ⟨_, meets_taking rfl rfl ⟨rfl, by decide⟩⟩

theorem test_witness_QuarantineAndRelease :
    ∀ code ∈ [0x0B, 0x0C],
      FreeOf (taking live code [17]) 17 ∧ Meets (taking live code [192]) code 1 (fun ps => 191 < fieldAt ps 0 1) ∧
      Meets (taking live code [191]) code 1 (fun ps => fieldAt ps 0 1 ≤ 191 ∧ live.station (fieldAt ps 0 1) = none) ∧
      (∃ st, Meets (taking live code [17]) code 1 (fun ps => live.station (fieldAt ps 0 1) = some st) ∧ st.state ≠ .quarantined) ∧
      ∃ st, Meets (taking quarantined code [17]) code 1 (fun ps => quarantined.station (fieldAt ps 0 1) = some st) ∧
        st.state = .quarantined := by
  intro code h
  have hc : (BitVec.ofNat 8 code).toNat = code := by
    simp only [List.mem_cons, List.not_mem_nil, or_false] at h
    rcases h with rfl | rfl <;> rfl
  exact ⟨freeOf_none _ rfl, meets_taking hc rfl (by decide), meets_taking hc rfl (by decide),
    ⟨_, meets_taking hc rfl rfl, by decide⟩, ⟨_, meets_taking hc rfl rfl, by decide⟩⟩

/-- Parameters of STAGE-CORRECTION for slot 17. -/
def stageParams (offset drift : Int) (span : Nat) : List Byte :=
  17 :: (beInt 8 offset ++ beInt 4 drift ++ beBytes 6 5 ++ beBytes 4 span ++ beBytes 2 7)

theorem test_witness_CorrectionDirectives :
    (∀ params ∈ [stageParams 500000000001 0 1, stageParams 0 (-250001) 1, stageParams 0 0 0, stageParams 0 0 86401],
      FreeOf (taking live 0x08 params) 17 ∧ Meets (taking live 0x08 params) 0x08 25 (fun ps =>
        ¬ (-500000000000 ≤ signedOf 64 (fieldAt ps 1 8) ∧ signedOf 64 (fieldAt ps 1 8) ≤ 500000000000 ∧
          -250000 ≤ signedOf 32 (fieldAt ps 9 4) ∧ signedOf 32 (fieldAt ps 9 4) ≤ 250000 ∧ 1 ≤ fieldAt ps 19 4 ∧
          fieldAt ps 19 4 ≤ 86400))) ∧
    Meets (taking live 0x08 (stageParams (-500000000000) 250000 86400)) 0x08 25 (fun ps =>
      fieldAt ps 0 1 ≤ 191 ∧ signedOf 64 (fieldAt ps 1 8) = -500000000000 ∧ signedOf 32 (fieldAt ps 9 4) = 250000 ∧
      fieldAt ps 19 4 = 86400 ∧ live.station (fieldAt ps 0 1) = some station17) ∧
    Meets (taking live 0x0A [17]) 0x0A 1 (fun ps => live.station (fieldAt ps 0 1) = some station17 ∧ station17.staged = none) ∧
    (let staged : Station := { station17 with staged := some Correction.default }
     staged.staged = some Correction.default ∧ staged.previous = none ∧
     ({ staged with previous := some { record := Correction.default, eSw := 9 } } : Station).previous ≠ none) ∧
    Meets (taking live 0x09 (17 :: zeroBytes 6)) 0x09 7 (fun ps =>
      live.station (fieldAt ps 0 1) = some station17 ∧ fieldAt ps 1 6 = 0 ∧ (live.eLo = none ↔ live.store = .idle)) ∧
    (netTime Correction.default 0 / (live.plan.epochLength * 1000000) < 1 ∧ ¬ (netTime Correction.default 0 / (live.plan.epochLength * 1000000) < 0)) := by
  refine ⟨?_, ?_, ?_, by decide, ?_, by decide⟩
  · intro params h
    refine ⟨freeOf_none _ rfl, meets_taking rfl ?_ ?_⟩ <;> simp only [List.mem_cons, List.not_mem_nil, or_false] at h <;>
      rcases h with rfl | rfl | rfl | rfl <;> decide
  all_goals (refine meets_taking rfl rfl ?_; decide)

/-- A store that is Idle and holds nothing. -/
def idle : State := { live with store := .idle, eLo := none, records := [] }

theorem storeInv_idle (s : State) (hp : s.plan = live.plan) (hf : s.failureSignal = false) (hs : s.store = .idle)
    (he : s.eLo = none) (hr : s.records = []) (hq : s.closedQueue = []) (hm : s.emitter = .idle) : StoreInv s where
  plan := by unfold Plan.inRange; rw [hp]; decide
  sorted := by simp [hr, assocSorted]
  sixteen := by simp [hr]
  present := by simp [he, hs]
  window := by simp [he]
  noWindow := by simp [State.openCount, State.countRecords, hr]
  queued := by simp [hq, hr]
  rising := by simp [State.queuedEpochs, hq]
  below := by simp [he]
  signal := by simp [hf]
  emitting := by simp [hr, hm, Emitter.emission]

theorem test_witness_StoreDirectives :
    (live.store ≠ .idle ∧ Meets (taking live 0x13 []) 0x13 0 (fun _ => True)) ∧
    ((taking idle 0x13 []).store = .idle ∧ StoreInv (taking idle 0x13 []) ∧ Meets (taking idle 0x13 []) 0x13 0 (fun _ => True)) ∧
    (∀ x : StoreState, ∀ code ∈ [0x14, 0x15, 0x16], (taking { live with store := x } code []).store = x ∧
      assocSorted (taking { live with store := x } code []).records = true ∧
      Meets (taking { live with store := x } code []) code 0 (fun _ => True)) ∧
    (({ live with rememberedStarved := true } : State).rememberedStarved = true ∧ live.rememberedStarved = false) ∧
    ({ live with freePages := [] } : State).freePages.length < 1024 := by
  refine ⟨⟨by decide, meets_taking rfl rfl trivial⟩, ⟨rfl, storeInv_idle _ rfl rfl rfl rfl rfl rfl rfl, meets_taking rfl rfl trivial⟩,
    ?_, by decide, by decide⟩
  intro x code h
  refine ⟨rfl, by show assocSorted live.records = true; decide, ?_⟩
  simp only [List.mem_cons, List.not_mem_nil, or_false] at h
  rcases h with rfl | rfl | rfl <;> exact meets_taking rfl rfl trivial

theorem test_witness_RestartOfEveryBlock :
    Meets (taking live 0x17 []) 0x17 0 (fun _ => True) ∧ (taking live 0x17 []).inHand = none ∧
    assocSorted (taking live 0x17 []).records = true ∧ (taking live 0x17 []).station 17 = some station17 ∧
    assocGet (taking live 0x17 []).records 0 = some epoch0 ∧ epoch0.state = .opened :=
  ⟨meets_taking rfl rfl trivial, rfl, by show assocSorted live.records = true; decide, rfl, rfl, rfl⟩

theorem test_witness_ImpossibleStepsChangeNothing :
    (live.inHand = none ∧ live.portA.fifo = [] ∧ live.portB.fifo = []) ∧ (waiting none 0x17 []).agent.isHeld = true ∧
    (waiting (some (hand 0 1)) 0x17 []).inHand ≠ none ∧ signalled.failureSignal = true ∧ (live.trunk .b).link = .down ∧
    (∀ n, (live.trunk .a).timer = some n → n < live.linkLossTime * 1000000) ∧
    (∀ n, live.ref.markTimer = some n → n < 1500000000) ∧
    (live.station 17 = some station17 ∧ ∀ n, station17.silence = some n → n < station17.silenceLimit * 1000000000) ∧
    live.failureSignal = false ∧
    (∀ lo, ({ live with eLo := some 1 } : State).eLo = some lo →
      live.ref.ntNow < (lo + 1) * (live.plan.epochLength * 1000000) + live.plan.hold * 1000000) ∧
    live.chain.outgoing = none ∧ live.transmitting = none ∧ live.inbound = [] ∧ live.agent.progress = none ∧
    directiveCode .restart = some (0x17, 0) := by
  refine ⟨by decide, rfl, by decide, rfl, rfl, ?_, ?_, ⟨rfl, ?_⟩, rfl, ?_, rfl, rfl, rfl, rfl, rfl⟩
  all_goals (intro n h; cases h; decide)

end Sys2Proof.Tests
end

section
/-! The directives that set up the Station Table: MAP-STATION (R3, R4), UNMAP-STATION (R5) and SET-CHANNEL (R17 to R19), with what
emptying segments in the Open records does (R5, R19, R88, R97). -/

namespace Sys2Proof.Machine

/-! ## The station map (R1, R3) -/

theorem mem_mapInsert (e x : MapEntry) (m : List MapEntry) : x ∈ mapInsert e m ↔ x = e ∨ x ∈ m := by
  induction m with
  | nil => simp [mapInsert]
  | cons y t ih =>
    unfold mapInsert
    split
    · simp
    · simp only [List.mem_cons, ih]
      tauto

theorem mapInsert_ascending {e : MapEntry} {m : List MapEntry} (h : m.Pairwise (fun x y => x.code < y.code))
    (hnew : ∀ x ∈ m, x.code ≠ e.code) : (mapInsert e m).Pairwise (fun x y => x.code < y.code) := by
  induction m with
  | nil => simp [mapInsert]
  | cons y t ih =>
    obtain ⟨hy, ht⟩ := List.pairwise_cons.1 h
    have hne : y.code ≠ e.code := hnew y List.mem_cons_self
    unfold mapInsert
    split
    · rename_i hlt
      refine List.pairwise_cons.2 ⟨fun x hx => ?_, h⟩
      rcases List.mem_cons.1 hx with rfl | hx
      · exact hlt
      · exact hlt.trans (hy x hx)
    · refine List.pairwise_cons.2 ⟨fun x hx => ?_, ih ht fun x hx => hnew x (List.mem_cons_of_mem _ hx)⟩
      rcases (mem_mapInsert e x t).1 hx with rfl | hx
      · omega
      · exact hy x hx

theorem mapHas_iff (m : List MapEntry) (code : Nat) : mapHas m code = true ↔ ∃ x ∈ m, x.code = code := by simp [mapHas]

/-- Every channel of a station that MAP-STATION has set up is unconfigured (R4). -/
theorem freshStation_channel (code : Nat) (mask : RouteMask) (limit : Nat) (c : Fin 4) :
    (freshStation code mask limit).channels.get c = Channel.fresh := by fin_cases c <;> rfl

theorem freshStation_counters (code : Nat) (mask : RouteMask) (limit : Nat) :
    ∀ n ∈ (freshStation code mask limit).counterList, n = 0 := by
  simp [freshStation, Station.counterList, StationCounters.counterList, StationCounters.zero, Quad.toList, Channel.fresh]

/-! ## Settings of a channel (R16, R17) -/

theorem readSampleWord_of_le {w : Nat} (h : w ≤ 2) :
    readSampleWord w = some (if w = 0 then .bits16 else if w = 1 then .bits24 else .bits32) := by
  interval_cases w <;> rfl

theorem readSampleWord_of_lt {w : Nat} (h : 2 < w) : readSampleWord w = none := by
  match w, h with
  | _ + 3, _ => rfl

theorem readSampleOrder_of_le {o : Nat} (h : o ≤ 1) : readSampleOrder o = some (if o = 0 then .mostFirst else .leastFirst) := by
  interval_cases o <;> rfl

theorem readSampleOrder_of_lt {o : Nat} (h : 1 < o) : readSampleOrder o = none := by
  match o, h with
  | _ + 2, _ => rfl

/-- No packet in hand is of the station that the directive names, so the directive need not wait (R13). -/
theorem waitsForStation_eq_false {s : State} {ps : List Byte} (h : ∀ p, s.inHand = some p → p.slot ≠ fieldAt ps 0 1) :
    waitsForStation s ps = false := by
  unfold waitsForStation State.handles
  split
  · rename_i p hp
    exact decide_eq_false (h p hp)
  · rfl

/-! ## Records in epoch order -/

theorem insertByEpoch_eq_orderedInsert (x : Nat × EpochRecord) (l : List (Nat × EpochRecord)) :
    insertByEpoch x l = l.orderedInsert (fun x y => x.2.number ≤ y.2.number) x := by
  induction l with
  | nil => rfl
  | cons y t ih => simp [insertByEpoch, List.orderedInsert, ih]

/-- The model's `byEpoch` is the library's insertion sort. -/
theorem byEpoch_eq_insertionSort (l : List (Nat × EpochRecord)) :
    byEpoch l = l.insertionSort (fun x y => x.2.number ≤ y.2.number) := by
  induction l with
  | nil => rfl
  | cons x t ih => simp [byEpoch, insertByEpoch_eq_orderedInsert, ih]

theorem byEpoch_perm (l : List (Nat × EpochRecord)) : (byEpoch l).Perm l := by
  rw [byEpoch_eq_insertionSort]
  exact List.perm_insertionSort _ l

theorem assocSorted_keys_nodup {α : Type} {l : Assoc α} (h : assocSorted l = true) : (l.map (·.1)).Nodup := by
  induction l with
  | nil => simp
  | cons p t ih =>
    simp only [assocSorted, Bool.and_eq_true, List.all_eq_true, decide_eq_true_eq] at h
    obtain ⟨hlt, ht⟩ := h
    refine List.nodup_cons.2 ⟨fun hp => ?_, ih ht⟩
    obtain ⟨q, hq, heq⟩ := List.mem_map.1 hp
    exact absurd heq (Nat.ne_of_gt (hlt q hq))

theorem mem_openRecords {s : State} (hs : assocSorted s.records = true) (i : Nat) (r : EpochRecord) :
    (i, r) ∈ s.openRecords ↔ assocGet s.records i = some r ∧ r.state = .opened := by
  have hmem : (i, r) ∈ s.records ↔ assocGet s.records i = some r := ⟨assocGet_of_mem hs, mem_of_assocGet⟩
  simp [State.openRecords, (byEpoch_perm _).mem_iff, hmem, EpochRecord.inState]

theorem openRecords_keys_nodup {s : State} (hs : assocSorted s.records = true) : (s.openRecords.map (·.1)).Nodup :=
  ((byEpoch_perm _).map _).nodup_iff.2 ((List.filter_sublist.map _).nodup (assocSorted_keys_nodup hs))

/-! ## Emptying segments (R5, R19) -/

theorem segmentKey_inj {slot k : Nat} {c d : Fin 4} : segmentKey k d = segmentKey slot c ↔ k = slot ∧ d = c := by
  simp only [segmentKey, Fin.ext_iff]
  omega

theorem segment_putSegment (r : EpochRecord) (slot k : Nat) (c d : Fin 4) (g : Segment) :
    (r.putSegment slot c g).segment k d = if k = slot ∧ d = c then g else r.segment k d := by
  unfold EpochRecord.putSegment EpochRecord.segment
  simp only
  split
  · rename_i hg
    simp only [assocGet_erase, segmentKey_inj]
    split <;> simp [hg]
  · simp only [assocGet_put, segmentKey_inj]
    split <;> simp

/-- A record with the segments of the channels `cs` of a slot emptied and given `n` slots. -/
def EpochRecord.emptied (r : EpochRecord) (slot : Nat) (cs : List (Fin 4)) (n : Nat) : EpochRecord :=
  cs.foldl (fun r c => r.putSegment slot c (Segment.empty n)) r

/-- The pages that the segments of the channels `cs` of a slot name, channel by channel. -/
def EpochRecord.pagesOf (r : EpochRecord) (slot : Nat) (cs : List (Fin 4)) : List PageNo :=
  cs.flatMap (fun c => (r.segment slot c).pageList)

theorem pagesOf_singleton (r : EpochRecord) (slot : Nat) (c : Fin 4) : r.pagesOf slot [c] = (r.segment slot c).pageList :=
  List.flatMap_singleton _ c

/-- `State.emptySegment` for each of the channels `cs` in turn. -/
def State.emptySegments (s : State) (i slot : Nat) (cs : List (Fin 4)) (n : Nat) : State :=
  cs.foldl (fun s c => s.emptySegment i slot c n) s

/-- The segments of the channels `cs` of a slot emptied in every Open record, in increasing epoch number (R5, R19, R88). -/
def State.emptyOpen (s : State) (slot : Nat) (cs : List (Fin 4)) (n : Nat) : State :=
  (s.openRecords.foldl (fun s p => s.emptySegments p.1 slot cs n) s).endStarved

theorem emptyChannel_eq_emptyOpen (s : State) (slot : Nat) (c : Fin 4) (n : Nat) :
    s.emptyChannel slot c n = s.emptyOpen slot [c] n := rfl

theorem emptySlot_eq_emptyOpen (s : State) (slot : Nat) : s.emptySlot slot = s.emptyOpen slot [0, 1, 2, 3] 0 := rfl

theorem emptied_only_segments (r : EpochRecord) (slot : Nat) (cs : List (Fin 4)) (n : Nat) :
    ∃ segments, r.emptied slot cs n = { r with segments := segments } := by
  induction cs generalizing r with
  | nil => exact ⟨r.segments, rfl⟩
  | cons c cs ih => exact ih (r.putSegment slot c (Segment.empty n))

theorem segment_emptied (r : EpochRecord) (slot : Nat) (cs : List (Fin 4)) (n k : Nat) (d : Fin 4) :
    (r.emptied slot cs n).segment k d = if k = slot ∧ d ∈ cs then Segment.empty n else r.segment k d := by
  induction cs generalizing r with
  | nil => simp [EpochRecord.emptied]
  | cons c cs ih =>
    have step : (r.emptied slot (c :: cs) n).segment k d =
        ((r.putSegment slot c (Segment.empty n)).emptied slot cs n).segment k d := rfl
    rw [step, ih, segment_putSegment]
    simp only [List.mem_cons]
    split_ifs <;> tauto

/-- Emptying one channel's segment leaves the pages of the other channels where they are. -/
theorem pagesOf_putSegment (r : EpochRecord) (slot : Nat) {c : Fin 4} {cs : List (Fin 4)} (g : Segment) (h : c ∉ cs) :
    (r.putSegment slot c g).pagesOf slot cs = r.pagesOf slot cs := by
  refine List.flatMap_congr fun d hd => ?_
  have hne : d ≠ c := fun heq => h (heq ▸ hd)
  simp [segment_putSegment, hne]

theorem emptySegment_of_present {s : State} {i : Nat} {r : EpochRecord} (hr : assocGet s.records i = some r) (slot : Nat)
    (c : Fin 4) (n : Nat) :
    s.emptySegment i slot c n =
      { s with
        records := assocPut s.records i (r.putSegment slot c (Segment.empty n))
        freePages := s.freePages ++ (r.segment slot c).pageList } := by
  simp [State.emptySegment, hr, State.returnPages]

/-- Emptying several channels of a slot in one record: that record is replaced, and the pages return in channel order (R88). -/
theorem emptySegments_of_present {s : State} {i : Nat} {r : EpochRecord} (hr : assocGet s.records i = some r) (slot : Nat)
    {cs : List (Fin 4)} (hcs : cs.Nodup) (n : Nat) :
    ∃ records, s.emptySegments i slot cs n = { s with records := records, freePages := s.freePages ++ r.pagesOf slot cs } ∧
      ∀ j, assocGet records j = if j = i then some (r.emptied slot cs n) else assocGet s.records j := by
  induction cs generalizing s r with
  | nil =>
    refine ⟨s.records, by simp [State.emptySegments, EpochRecord.pagesOf], fun j => ?_⟩
    split
    · rename_i hj
      exact hj ▸ hr
    · rfl
  | cons c cs ih =>
    obtain ⟨hc, hcs⟩ := List.nodup_cons.1 hcs
    have first := emptySegment_of_present hr slot c n
    have present : assocGet (s.emptySegment i slot c n).records i = some (r.putSegment slot c (Segment.empty n)) := by
      rw [first]
      exact assocGet_put_same _ _ _
    obtain ⟨records, hstate, hget⟩ := ih present hcs
    rw [first] at hstate hget
    refine ⟨records, ?_, fun j => ?_⟩
    · calc s.emptySegments i slot (c :: cs) n
          = (s.emptySegment i slot c n).emptySegments i slot cs n := rfl
        _ = { s with records := records, freePages := s.freePages ++ r.pagesOf slot (c :: cs) } := by
            rw [first, hstate, pagesOf_putSegment r slot _ hc]
            simp [EpochRecord.pagesOf]
    · rw [hget j, assocGet_put]
      split <;> rfl

/-- Emptying the channels in each record of a list, one record after the other. -/
theorem foldl_emptySegments (slot : Nat) {cs : List (Fin 4)} (hcs : cs.Nodup) (n : Nat) (l : List (Nat × EpochRecord))
    {s : State} (hl : ∀ p ∈ l, assocGet s.records p.1 = some p.2) (hd : (l.map (·.1)).Nodup) :
    ∃ records, l.foldl (fun s p => s.emptySegments p.1 slot cs n) s =
        { s with records := records, freePages := s.freePages ++ l.flatMap (fun p => p.2.pagesOf slot cs) } ∧
      (∀ p ∈ l, assocGet records p.1 = some (p.2.emptied slot cs n)) ∧
      ∀ j, j ∉ l.map (·.1) → assocGet records j = assocGet s.records j := by
  induction l generalizing s with
  | nil => exact ⟨s.records, by simp, by simp, fun _ _ => rfl⟩
  | cons p t ih =>
    obtain ⟨hp, ht⟩ := List.nodup_cons.1 hd
    have other : ∀ q ∈ t, q.1 ≠ p.1 := fun q hq heq => hp (List.mem_map.2 ⟨q, hq, heq⟩)
    obtain ⟨rs, hstate, hget⟩ := emptySegments_of_present (hl p List.mem_cons_self) slot hcs n
    have later : ∀ q ∈ t, assocGet (s.emptySegments p.1 slot cs n).records q.1 = some q.2 := fun q hq => by
      rw [hstate, hget, if_neg (other q hq)]
      exact hl q (List.mem_cons_of_mem _ hq)
    obtain ⟨records, hfold, hin, hout⟩ := ih later ht
    rw [hstate] at hfold hout
    refine ⟨records, ?_, fun q hq => ?_, fun j hj => ?_⟩
    · rw [List.foldl_cons, hstate, hfold]
      simp
    · rcases List.mem_cons.1 hq with rfl | hq
      · rw [hout _ hp, hget, if_pos rfl]
      · exact hin q hq
    · rw [List.map_cons, List.mem_cons, not_or] at hj
      obtain ⟨hjp, hjt⟩ := hj
      rw [hout j hjt, hget, if_neg hjp]

/-- The records `new` are the records `old` with the segments of the channels `cs` of a slot emptied in each Open one. -/
structure OpenEmptied (old new : Assoc EpochRecord) (slot : Nat) (cs : List (Fin 4)) (n : Nat) : Prop where
  notOpen : ∀ i r, assocGet old i = some r → r.state ≠ .opened → assocGet new i = some r
  opened  : ∀ i r, assocGet old i = some r → r.state = .opened → assocGet new i = some (r.emptied slot cs n)
  free    : ∀ i, assocGet old i = none → assocGet new i = none

/-- An Open record keeps all but its segments, and of those all but the emptied ones. -/
theorem OpenEmptied.segments {old new : Assoc EpochRecord} {slot : Nat} {cs : List (Fin 4)} {n : Nat}
    (h : OpenEmptied old new slot cs n) {i : Nat} {r : EpochRecord} (hr : assocGet old i = some r) (ho : r.state = .opened) :
    ∃ segments, assocGet new i = some { r with segments := segments } ∧
      ∀ k d, ({ r with segments := segments } : EpochRecord).segment k d =
        if k = slot ∧ d ∈ cs then Segment.empty n else r.segment k d := by
  obtain ⟨segments, hsegs⟩ := emptied_only_segments r slot cs n
  exact ⟨segments, hsegs ▸ h.opened i r hr ho, fun k d => hsegs ▸ segment_emptied r slot cs n k d⟩

/-- With no suspension still to take effect, a freeing ends Starved from 1,024 free pages on (R97). -/
theorem endStarved_of_settled {s : State} (h : s.failureSignal = false) :
    s.endStarved = { s with store := if s.store = .starved ∧ 1024 ≤ s.freePages.length then .ready else s.store } := by
  have enough : (s.store = .starved ∧ s.failureSignal = false ∧ atLeast Config.starvedEnd s.freePages = true) ↔
      s.store = .starved ∧ 1024 ≤ s.freePages.length := by simp [h, Config.starvedEnd]
  rw [State.endStarved, if_congr enough rfl rfl]
  split <;> rfl

/-- All that emptying a slot's channels in the Open records does (R5, R19, R88, R97). -/
theorem emptyOpen_eq {s : State} (hs : assocSorted s.records = true) (hf : s.failureSignal = false) (slot : Nat)
    {cs : List (Fin 4)} (hcs : cs.Nodup) (n : Nat) :
    let pages := s.freePages ++ s.openRecords.flatMap (fun p => p.2.pagesOf slot cs)
    ∃ records, OpenEmptied s.records records slot cs n ∧ s.emptyOpen slot cs n =
      { s with
        records := records, freePages := pages
        store := if s.store = .starved ∧ 1024 ≤ pages.length then .ready else s.store } := by
  have listed : ∀ p ∈ s.openRecords, assocGet s.records p.1 = some p.2 := fun p hp => ((mem_openRecords hs p.1 p.2).1 hp).1
  obtain ⟨records, hfold, hin, hout⟩ := foldl_emptySegments slot hcs n s.openRecords listed (openRecords_keys_nodup hs)
  have unlisted : ∀ i, (∀ r, assocGet s.records i = some r → r.state ≠ .opened) →
      assocGet records i = assocGet s.records i := by
    intro i hi
    refine hout i fun hmem => ?_
    obtain ⟨⟨j, r⟩, hp, rfl⟩ := List.mem_map.1 hmem
    obtain ⟨hget, hopen⟩ := (mem_openRecords hs j r).1 hp
    exact hi r hget hopen
  refine ⟨records, ⟨fun i r hr hne => ?_, fun i r hr ho => ?_, fun i hi => ?_⟩, ?_⟩
  · rw [unlisted i fun r' hr' => by rw [hr] at hr'; cases hr'; exact hne, hr]
  · exact hin (i, r) ((mem_openRecords hs i r).2 ⟨hr, ho⟩)
  · rw [unlisted i fun r hr => by simp [hi] at hr, hi]
  · unfold State.emptyOpen
    rw [hfold]
    exact endStarved_of_settled hf

/-! ## MAP-STATION (R3, R4) -/

theorem exec_mapStation {s : State} {p : Progress} {e : Entry} {rest : List Entry} (h : Takes s p e rest 0x05 6) :
    exec .mapStation s = .next ((mapStationRule s e.params).state.finishEntry p e rest (mapStationRule s e.params).outcome
      (mapStationRule s e.params).data) :=
  congrArg Host.Outcome.next (runDirective_takes h rfl)

/-- The parameters of a MAP-STATION are in range (R3). -/
def MapStationInRange (ps : List Byte) : Prop :=
  fieldAt ps 2 1 ≤ 191 ∧ ((fieldAt ps 3 1).testBit 0 = true ∨ (fieldAt ps 3 1).testBit 1 = true) ∧ 1 ≤ fieldAt ps 4 2 ∧
    fieldAt ps 4 2 ≤ 600

/-- The rule's first check fails exactly on the parameters in range. -/
theorem not_mapStationInRange_iff (ps : List Byte) :
    (191 < fieldAt ps 2 1 ∨ ((readRouteMask (fieldAt ps 3 1)).a || (readRouteMask (fieldAt ps 3 1)).b) = false ∨
      fieldAt ps 4 2 < 1 ∨ 600 < fieldAt ps 4 2) ↔ ¬ MapStationInRange ps := by
  have ports : ∀ a b : Bool, (a || b) = false ↔ ¬ (a = true ∨ b = true) := by decide
  rw [ports]
  simp only [MapStationInRange, readRouteMask, not_and_or, Nat.not_le]

theorem mapStationRule_of_outOfRange (s : State) {ps : List Byte} (h : ¬ MapStationInRange ps) :
    mapStationRule s ps = .leave s .refusedRange := if_pos ((not_mapStationInRange_iff ps).2 h)

theorem mapStationRule_of_inRange (s : State) {ps : List Byte} (h : MapStationInRange ps) :
    mapStationRule s ps =
      if mapHas s.map (fieldAt ps 0 2) then .leave s .refusedRange
      else if 192 ≤ s.map.length then .leave s .refusedBusy
      else if (s.station (fieldAt ps 2 1)).isSome then .leave s .refusedState
      else
        .done ({ s with map := mapInsert { code := fieldAt ps 0 2, slot := fieldAt ps 2 1 } s.map }.putStation (fieldAt ps 2 1)
          (freshStation (fieldAt ps 0 2) (readRouteMask (fieldAt ps 3 1)) (fieldAt ps 4 2))) :=
  if_neg fun hout => (not_mapStationInRange_iff ps).1 hout h

/-- Settles O43: each check is one branch of the rule, and the map and record are those of `mapInsert` and `freshStation`. -/
theorem mapStationChecks : Obligations.MapStationChecks := by
  intro s p e rest h hinv code slot a b limit inRange known
  rw [exec_mapStation h]
  have has_iff : mapHas s.map code = true ↔ known := mapHas_iff s.map code
  refine ⟨fun hout => ?_, fun hin hk => ?_, fun hin hk hfull => ?_, fun hin hk hroom hocc => ?_, fun hin hk hroom hvacant => ?_⟩
  · rw [mapStationRule_of_outOfRange s hout]
    rfl
  · rw [mapStationRule_of_inRange s hin, if_pos (has_iff.2 hk)]
    rfl
  · rw [mapStationRule_of_inRange s hin, if_neg (mt has_iff.1 hk), if_pos hfull]
    rfl
  · rw [mapStationRule_of_inRange s hin, if_neg (mt has_iff.1 hk), if_neg (Nat.not_le.2 hroom), if_pos hocc]
    rfl
  · have hempty : ¬ (s.station slot).isSome = true := by simp [hvacant]
    have hnew : ∀ x ∈ s.map, x.code ≠ code := fun x hx heq => hk ⟨x, hx, heq⟩
    rw [mapStationRule_of_inRange s hin, if_neg (mt has_iff.1 hk), if_neg (Nat.not_le.2 hroom), if_neg hempty]
    exact ⟨mapInsert { code := code, slot := slot } s.map, freshStation code (readRouteMask (fieldAt e.params 3 1)) limit,
      fun x => mem_mapInsert _ x s.map, mapInsert_ascending hinv.ascending hnew,
      rfl, rfl, rfl, rfl, rfl, rfl, freshStation_channel _ _ _, rfl, rfl, rfl, freshStation_counters _ _ _, rfl⟩

/-! ## UNMAP-STATION (R5) -/

theorem exec_unmapStation {s : State} {p : Progress} {e : Entry} {rest : List Entry} (h : Takes s p e rest 0x06 1)
    (hw : ∀ q, s.inHand = some q → q.slot ≠ fieldAt e.params 0 1) :
    exec .unmapStation s = .next ((unmapStationRule s e.params).state.finishEntry p e rest
      (unmapStationRule s e.params).outcome (unmapStationRule s e.params).data) :=
  congrArg Host.Outcome.next (runDirective_takes h (waitsForStation_eq_false hw))

theorem unmapStationRule_of_outOfRange (s : State) {ps : List Byte} (h : 191 < fieldAt ps 0 1) :
    unmapStationRule s ps = .leave s .refusedRange := by simp [unmapStationRule, h]

theorem unmapStationRule_of_vacant {s : State} {ps : List Byte} (h : fieldAt ps 0 1 ≤ 191)
    (hv : s.station (fieldAt ps 0 1) = none) : unmapStationRule s ps = .leave s .refusedTarget := by
  simp [unmapStationRule, Nat.not_lt.2 h, hv]

theorem unmapStationRule_of_mapped {s : State} {ps : List Byte} {st : Station} (h : fieldAt ps 0 1 ≤ 191)
    (hst : s.station (fieldAt ps 0 1) = some st) :
    unmapStationRule s ps =
      if st.state ≠ .quarantined ∧ s.store ≠ .idle then .leave s .refusedState else .done (s.unmap (fieldAt ps 0 1)) := by
  simp [unmapStationRule, Nat.not_lt.2 h, hst]

theorem unmap_of_idle {s : State} (h : s.store = .idle) (slot : Nat) :
    s.unmap slot = { s with map := mapRemove slot s.map, stations := assocErase s.stations slot } := if_pos h

theorem unmap_of_running {s : State} (h : s.store ≠ .idle) (slot : Nat) :
    s.unmap slot =
      ({ s with map := mapRemove slot s.map, stations := assocErase s.stations slot } : State).emptyOpen slot [0, 1, 2, 3] 0 :=
  if_neg h

/-- Settles O44: each check is one branch of the rule; under a running store the slot's four segments are emptied in every Open
record. -/
theorem unmapStationEmptiesSlot : Obligations.UnmapStationEmptiesSlot := by
  intro s p e rest h hw slot
  rw [exec_unmapStation h hw]
  refine ⟨fun hout => ?_, fun hin hv => ?_, fun hin st hst hq hrun => ?_, fun hin st hst hidle => ?_,
    fun hin st hst hq hrun hsorted => ?_⟩
  · rw [unmapStationRule_of_outOfRange s hout]
    rfl
  · rw [unmapStationRule_of_vacant hin hv]
    rfl
  · rw [unmapStationRule_of_mapped hin hst, if_pos ⟨hq, hrun⟩]
    rfl
  · rw [unmapStationRule_of_mapped hin hst, if_neg (by simp [hidle]), unmap_of_idle hidle]
    rfl
  · rw [unmapStationRule_of_mapped hin hst, if_neg (by simp [hq]), unmap_of_running hrun]
    obtain ⟨records, hrecords, hstate⟩ :=
      emptyOpen_eq (s := { s with map := mapRemove slot s.map, stations := assocErase s.stations slot }) hsorted h.settled slot
        (cs := [0, 1, 2, 3]) (by decide) 0
    have every : ∀ c : Fin 4, c ∈ ([0, 1, 2, 3] : List (Fin 4)) := by decide
    refine ⟨records, hrecords.notOpen, fun i r hr ho => ?_, hrecords.free, ?_⟩
    · obtain ⟨segments, hget, hsegs⟩ := hrecords.segments hr ho
      exact ⟨segments, hget, fun k c => by simpa only [every c, and_true, Segment.empty] using hsegs k c⟩
    · rw [hstate]
      rfl

/-! ## SET-CHANNEL (R17, R18, R19) -/

theorem exec_setChannel {s : State} {p : Progress} {e : Entry} {rest : List Entry} (h : Takes s p e rest 0x07 5)
    (hw : ∀ q, s.inHand = some q → q.slot ≠ fieldAt e.params 0 1) :
    exec .setChannel s = .next ((setChannelRule s e.params).state.finishEntry p e rest (setChannelRule s e.params).outcome
      (setChannelRule s e.params).data) :=
  congrArg Host.Outcome.next (runDirective_takes h (waitsForStation_eq_false hw))

/-- The parameters of a SET-CHANNEL are in range (R17). -/
def SetChannelInRange (ps : List Byte) : Prop :=
  fieldAt ps 0 1 ≤ 191 ∧ fieldAt ps 1 1 ≤ 3 ∧ fieldAt ps 2 1 ≤ 10 ∧ fieldAt ps 3 1 ≤ 2 ∧ fieldAt ps 4 1 ≤ 1

theorem setChannelRule_of_outOfRange (s : State) {ps : List Byte} (h : ¬ SetChannelInRange ps) :
    setChannelRule s ps = .leave s .refusedRange := by
  unfold setChannelRule
  simp only
  split
  · rename_i word order hw ho
    refine dif_neg fun hrange => h ?_
    obtain ⟨hslot, hchannel, hrate⟩ := hrange
    refine ⟨hslot, Nat.le_of_lt_succ hchannel, hrate, Nat.le_of_not_lt fun hlt => ?_, Nat.le_of_not_lt fun hlt => ?_⟩
    · simp [readSampleWord_of_lt hlt] at hw
    · simp [readSampleOrder_of_lt hlt] at ho
  · rfl

theorem setChannelRule_of_vacant {s : State} {ps : List Byte} (h : SetChannelInRange ps)
    (hv : s.station (fieldAt ps 0 1) = none) : setChannelRule s ps = .leave s .refusedTarget := by
  obtain ⟨hslot, hchannel, hrate, hword, horder⟩ := h
  simp [setChannelRule, readSampleWord_of_le hword, readSampleOrder_of_le horder, hslot, Nat.lt_succ_of_le hchannel, hrate, hv]

theorem setChannelRule_of_mapped {s : State} {ps : List Byte} {st : Station} {c : Fin 4} (h : SetChannelInRange ps)
    (hst : s.station (fieldAt ps 0 1) = some st) (hc : c.val = fieldAt ps 1 1) :
    setChannelRule s ps =
      if st.state ≠ .configured ∧ st.state ≠ .quarantined ∧ s.store ≠ .idle then .leave s .refusedState
      else if (samplesPerEpoch (fieldAt ps 2 1) s.plan.epochLength).isNone then .leave s .refusedRange
      else
        .done (s.setChannel (fieldAt ps 0 1) st c (fieldAt ps 2 1)
          (if fieldAt ps 3 1 = 0 then .bits16 else if fieldAt ps 3 1 = 1 then .bits24 else .bits32)
          (if fieldAt ps 4 1 = 0 then .mostFirst else .leastFirst)) := by
  obtain ⟨hslot, hchannel, hrate, hword, horder⟩ := h
  simp [setChannelRule, readSampleWord_of_le hword, readSampleOrder_of_le horder, hslot, ← hc, hrate, hst]

theorem setChannel_of_kept {s : State} {st : Station} {c : Fin 4} {rate : Nat}
    (h : s.store = .idle ∨ (st.channels.get c).rate = rate) (slot : Nat) (word : SampleWord) (order : SampleOrder) :
    s.setChannel slot st c rate word order =
      s.putStation slot { st with channels := st.channels.set c ((st.channels.get c).configure rate word order) } := if_pos h

theorem setChannel_of_changed {s : State} {st : Station} {c : Fin 4} {rate : Nat} (hrun : s.store ≠ .idle)
    (hrate : (st.channels.get c).rate ≠ rate) (slot : Nat) (word : SampleWord) (order : SampleOrder) :
    s.setChannel slot st c rate word order =
      (s.putStation slot
        { st with channels := st.channels.set c ((st.channels.get c).configure rate word order) }).emptyOpen slot [c]
          (nOf rate s.plan.epochLength) :=
  if_neg (not_or.2 ⟨hrun, hrate⟩)

/-- Settles O45: each check is one branch of the rule; a changed rate code under a running store empties the channel's segment in
every Open record. -/
theorem setChannelChecks : Obligations.SetChannelChecks := by
  intro s p e rest h hw slot channel rate word order inRange
  rw [exec_setChannel h hw]
  refine ⟨fun hout => ?_, fun hin hv => ?_, fun hin st hst => ?_⟩
  · rw [setChannelRule_of_outOfRange s hout]
    rfl
  · rw [setChannelRule_of_vacant hin hv]
    rfl
  intro ready fits
  have notReady_iff : (st.state ≠ .configured ∧ st.state ≠ .quarantined ∧ s.store ≠ .idle) ↔ ¬ ready := by
    simp only [ready, not_or]
  have notFits_iff : (samplesPerEpoch rate s.plan.epochLength).isNone = true ↔ ¬ fits := by simp [fits]
  have named : ∃ c : Fin 4, c.val = channel := by
    obtain ⟨-, hchannel, -⟩ := hin
    exact ⟨⟨channel, Nat.lt_succ_of_le hchannel⟩, rfl⟩
  refine ⟨fun hready => ?_, fun hready hfits => ?_, fun hready hfits c hc => ?_⟩
  · obtain ⟨c, hc⟩ := named
    rw [setChannelRule_of_mapped hin hst hc, if_pos (notReady_iff.2 hready)]
    rfl
  · obtain ⟨c, hc⟩ := named
    rw [setChannelRule_of_mapped hin hst hc, if_neg (fun hn => notReady_iff.1 hn hready), if_pos (notFits_iff.2 hfits)]
    rfl
  intro ch s1
  rw [setChannelRule_of_mapped hin hst hc, if_neg (fun hn => notReady_iff.1 hn hready),
    if_neg (fun hn => notFits_iff.1 hn hfits)]
  refine ⟨fun hkept => ?_, fun hrun hrate hsorted => ?_⟩
  · rw [setChannel_of_kept hkept]
    rfl
  · rw [setChannel_of_changed hrun hrate]
    obtain ⟨records, hrecords, hstate⟩ :=
      emptyOpen_eq (s := s1) hsorted h.settled slot (List.nodup_singleton c) (nOf rate s.plan.epochLength)
    refine ⟨records, hrecords.notOpen, fun i r hr ho => ?_, hrecords.free, ?_⟩
    · obtain ⟨segments, hget, hsegs⟩ := hrecords.segments hr ho
      exact ⟨segments, hget, fun k d => by simpa only [List.mem_singleton, Segment.empty] using hsegs k d⟩
    · simp only [pagesOf_singleton] at hstate
      exact congrArg (fun t : State => (.next (t.finishEntry p e rest .done []) : Result)) hstate

end Sys2Proof.Machine
end

section
/-! The directives on correction records: STAGE-CORRECTION (R24, R27, R28), DISCARD-STAGED (R35), and COMMIT-CORRECTION with E_sw and
the retirement test (R29 to R32, R70). -/

namespace Sys2Proof.Machine

/-- A directive on a station whose packet is not in hand does what its own rule answers (R13, R163). -/
theorem runDirective_of_stationRule {s : State} {p : Progress} {e : Entry} {rest : List Entry} {code len : Nat}
    {body : State → List Byte → DirResult} {r : DirResult} (h : Takes s p e rest code len)
    (hw : ∀ q, s.inHand = some q → q.slot ≠ fieldAt e.params 0 1) (hr : body s e.params = r) :
    runDirective code len waitsForStation body s = r.state.finishEntry p e rest r.outcome r.data :=
  hr ▸ runDirective_takes h (waitsForStation_eq_false hw)

/-! ## STAGE-CORRECTION (R27, R28) -/

theorem exec_stageCorrection_of_rule {s : State} {p : Progress} {e : Entry} {rest : List Entry} {r : DirResult}
    (h : Takes s p e rest 0x08 25) (hw : ∀ q, s.inHand = some q → q.slot ≠ fieldAt e.params 0 1)
    (hr : stageCorrectionRule s e.params = r) :
    exec .stageCorrection s = .next (r.state.finishEntry p e rest r.outcome r.data) :=
  congrArg Host.Outcome.next (runDirective_of_stationRule h hw hr)

/-- The parameters of a STAGE-CORRECTION are in range (R24, R27). -/
def StageInRange (ps : List Byte) : Prop :=
  fieldAt ps 0 1 ≤ 191 ∧ -500000000000 ≤ signedOf 64 (fieldAt ps 1 8) ∧ signedOf 64 (fieldAt ps 1 8) ≤ 500000000000 ∧
    -250000 ≤ signedOf 32 (fieldAt ps 9 4) ∧ signedOf 32 (fieldAt ps 9 4) ≤ 250000 ∧ 1 ≤ fieldAt ps 19 4 ∧
    fieldAt ps 19 4 ≤ 86400

/-- The record that a STAGE-CORRECTION spells: not default, and with no switch time before a commit (R24, R28). -/
def stagedOf (ps : List Byte) : Correction :=
  { offset := signedOf 64 (fieldAt ps 1 8), drift := signedOf 32 (fieldAt ps 9 4), refTime := fieldAt ps 13 6,
    span := fieldAt ps 19 4, version := fieldAt ps 23 2, isDefault := false, switch := none }

theorem correctionInRange_iff (offset drift : Int) (span : Nat) :
    correctionInRange offset drift span = true ↔
      -500000000000 ≤ offset ∧ offset ≤ 500000000000 ∧ -250000 ≤ drift ∧ drift ≤ 250000 ∧ 1 ≤ span ∧ span ≤ 86400 := by
  simp only [correctionInRange, Bool.and_eq_true, decide_eq_true_eq, and_assoc]

/-- The rule's first check fails exactly on the parameters out of range. -/
theorem not_stageInRange_iff (ps : List Byte) :
    (191 < fieldAt ps 0 1 ∨
      correctionInRange (signedOf 64 (fieldAt ps 1 8)) (signedOf 32 (fieldAt ps 9 4)) (fieldAt ps 19 4) = false) ↔
        ¬ StageInRange ps := by
  rw [StageInRange, not_and_or, Nat.not_le, ← correctionInRange_iff, Bool.not_eq_true]

theorem stageCorrectionRule_of_outOfRange (s : State) {ps : List Byte} (h : ¬ StageInRange ps) :
    stageCorrectionRule s ps = .leave s .refusedRange := if_pos ((not_stageInRange_iff ps).2 h)

theorem stageCorrectionRule_of_vacant {s : State} {ps : List Byte} (h : StageInRange ps)
    (hv : s.station (fieldAt ps 0 1) = none) : stageCorrectionRule s ps = .leave s .refusedTarget := by
  have passes := mt (not_stageInRange_iff ps).1 (not_not_intro h)
  simp only [stageCorrectionRule, if_neg passes, hv]

theorem stageCorrectionRule_of_mapped {s : State} {ps : List Byte} {st : Station} (h : StageInRange ps)
    (hst : s.station (fieldAt ps 0 1) = some st) :
    stageCorrectionRule s ps = .done (s.putStation (fieldAt ps 0 1) { st with staged := some (stagedOf ps) }) := by
  have passes := mt (not_stageInRange_iff ps).1 (not_not_intro h)
  simp only [stageCorrectionRule, if_neg passes, hst, stagedOf]

/-! ## DISCARD-STAGED (R35) -/

theorem exec_discardStaged_of_rule {s : State} {p : Progress} {e : Entry} {rest : List Entry} {r : DirResult}
    (h : Takes s p e rest 0x0A 1) (hw : ∀ q, s.inHand = some q → q.slot ≠ fieldAt e.params 0 1)
    (hr : discardStagedRule s e.params = r) :
    exec .discardStaged s = .next (r.state.finishEntry p e rest r.outcome r.data) :=
  congrArg Host.Outcome.next (runDirective_of_stationRule h hw hr)

theorem discardStagedRule_of_outOfRange (s : State) {ps : List Byte} (h : 191 < fieldAt ps 0 1) :
    discardStagedRule s ps = .leave s .refusedRange := if_pos h

theorem discardStagedRule_of_vacant {s : State} {ps : List Byte} (h : fieldAt ps 0 1 ≤ 191)
    (hv : s.station (fieldAt ps 0 1) = none) : discardStagedRule s ps = .leave s .refusedTarget := by
  simp [discardStagedRule, Nat.not_lt.2 h, hv]

theorem discardStagedRule_of_unstaged {s : State} {ps : List Byte} {st : Station} (h : fieldAt ps 0 1 ≤ 191)
    (hst : s.station (fieldAt ps 0 1) = some st) (hn : st.staged = none) :
    discardStagedRule s ps = .leave s .noEffect := by
  simp [discardStagedRule, Nat.not_lt.2 h, hst, hn]

theorem discardStagedRule_of_staged {s : State} {ps : List Byte} {st : Station} (h : fieldAt ps 0 1 ≤ 191)
    (hst : s.station (fieldAt ps 0 1) = some st) (hs : st.staged ≠ none) :
    discardStagedRule s ps = .done (s.putStation (fieldAt ps 0 1) { st with staged := none }) := by
  simp [discardStagedRule, Nat.not_lt.2 h, hst, hs]

/-! ## COMMIT-CORRECTION (R29 to R32) -/

theorem exec_commitCorrection_of_rule {s : State} {p : Progress} {e : Entry} {rest : List Entry} {r : DirResult}
    (h : Takes s p e rest 0x09 7) (hw : ∀ q, s.inHand = some q → q.slot ≠ fieldAt e.params 0 1)
    (hr : commitCorrectionRule s e.params = r) :
    exec .commitCorrection s = .next (r.state.finishEntry p e rest r.outcome r.data) :=
  congrArg Host.Outcome.next (runDirective_of_stationRule h hw hr)

/-- The retirement test (R32): the store is Idle, or E_sw lies below E_lo. -/
theorem retiresAtOnce_iff (s : State) (eSw : Nat) :
    s.retiresAtOnce eSw = true ↔ s.store = .idle ∨ ∃ lo, s.eLo = some lo ∧ eSw < lo := by
  by_cases hidle : s.store = .idle
  · simp [State.retiresAtOnce, hidle]
  · cases hlo : s.eLo <;> simp [State.retiresAtOnce, hidle, hlo]

/-- What a commit reports: E_sw, the retirement flag and a reserved byte. -/
theorem commitReport_eq (eSw : Nat) (retired : Bool) :
    beBytes 6 eSw ++ flagByte retired ++ zeroBytes 1 = beBytes 6 eSw ++ [if retired then 1 else 0, 0] :=
  List.append_assoc _ _ _

/-- A station after a commit of `staged`: the current record becomes the previous one, unless it is retired at once (R30, R32). -/
def Station.committed (st : Station) (staged : Correction) (switch eSw : Nat) (retired : Bool) : Station :=
  { st with
    current := { staged with switch := some switch }
    previous := if retired then none else some { record := st.current, eSw := eSw }
    staged := none }

theorem commitCorrectionRule_of_outOfRange (s : State) {ps : List Byte} (h : 191 < fieldAt ps 0 1) :
    commitCorrectionRule s ps = .leave s .refusedRange := if_pos h

theorem commitCorrectionRule_of_vacant {s : State} {ps : List Byte} (h : fieldAt ps 0 1 ≤ 191)
    (hv : s.station (fieldAt ps 0 1) = none) : commitCorrectionRule s ps = .leave s .refusedTarget := by
  simp [commitCorrectionRule, Nat.not_lt.2 h, hv]

theorem commitCorrectionRule_of_unstaged {s : State} {ps : List Byte} {st : Station} (h : fieldAt ps 0 1 ≤ 191)
    (hst : s.station (fieldAt ps 0 1) = some st) (hn : st.staged = none) :
    commitCorrectionRule s ps = .leave s .refusedState := by
  simp [commitCorrectionRule, Nat.not_lt.2 h, hst, hn]

theorem commitCorrectionRule_of_busy {s : State} {ps : List Byte} {st : Station} (h : fieldAt ps 0 1 ≤ 191)
    (hst : s.station (fieldAt ps 0 1) = some st) (hs : st.staged ≠ none) (hp : st.previous ≠ none) :
    commitCorrectionRule s ps = .leave s .refusedBusy := by
  obtain ⟨staged, hs⟩ := Option.ne_none_iff_exists'.1 hs
  simp [commitCorrectionRule, Nat.not_lt.2 h, hst, hs, Option.isSome_iff_ne_none.2 hp]

/-- A commit that passes its checks, with the outcome `retired` of the retirement test on its E_sw (R30 to R32). -/
theorem commitCorrectionRule_of_ready {s : State} {ps : List Byte} {st : Station} {staged : Correction}
    (h : fieldAt ps 0 1 ≤ 191) (hst : s.station (fieldAt ps 0 1) = some st) (hs : st.staged = some staged)
    (hp : st.previous = none) {eSw : Nat} {retired : Bool}
    (heSw : switchEpoch s.plan { staged with switch := some (fieldAt ps 1 6) } (fieldAt ps 1 6) = eSw)
    (hr : s.retiresAtOnce eSw = retired) :
    commitCorrectionRule s ps =
      .done (s.putStation (fieldAt ps 0 1) (st.committed staged (fieldAt ps 1 6) eSw retired))
        (beBytes 6 eSw ++ [if retired then 1 else 0, 0]) := by
  subst heSw hr
  simp only [commitCorrectionRule, if_neg (Nat.not_lt.2 h), hst, hs, hp, Option.isSome_none, commitReport_eq]
  rfl

/-- Settles O47: each check is one branch of the directive's rule; a commit that passes them turns on the retirement test. -/
theorem correctionDirectives : Obligations.CorrectionDirectives := by
  constructor
  case left =>
    intro s p e rest hw slot
    constructor
    case left =>
      intro h offset drift span inRange
      exact ⟨fun hout => exec_stageCorrection_of_rule h hw (stageCorrectionRule_of_outOfRange s hout),
        fun hin hv => exec_stageCorrection_of_rule h hw (stageCorrectionRule_of_vacant hin hv),
        fun hin _ hst => exec_stageCorrection_of_rule h hw (stageCorrectionRule_of_mapped hin hst)⟩
    case right =>
      intro h
      exact ⟨fun hout => exec_discardStaged_of_rule h hw (discardStagedRule_of_outOfRange s hout),
        fun hin hv => exec_discardStaged_of_rule h hw (discardStagedRule_of_vacant hin hv),
        fun hin _ hst => ⟨fun hn => exec_discardStaged_of_rule h hw (discardStagedRule_of_unstaged hin hst hn),
          fun hs => exec_discardStaged_of_rule h hw (discardStagedRule_of_staged hin hst hs)⟩⟩
  case right =>
    intro s p e rest h hw _ slot switch
    refine ⟨fun hout => exec_commitCorrection_of_rule h hw (commitCorrectionRule_of_outOfRange s hout),
      fun hin hv => exec_commitCorrection_of_rule h hw (commitCorrectionRule_of_vacant hin hv),
      fun hin st hst => ⟨fun hn => exec_commitCorrection_of_rule h hw (commitCorrectionRule_of_unstaged hin hst hn),
        fun hs hp => exec_commitCorrection_of_rule h hw (commitCorrectionRule_of_busy hin hst hs hp),
        ?_⟩⟩
    intro staged hs hp current eSw retired
    have heSw : switchEpoch s.plan current switch = eSw := rfl
    have test : s.retiresAtOnce eSw = true ↔ retired := retiresAtOnce_iff s eSw
    exact ⟨fun hret => exec_commitCorrection_of_rule h hw
        (commitCorrectionRule_of_ready hin hst hs hp heSw (test.2 hret)),
      fun hret => exec_commitCorrection_of_rule h hw
        (commitCorrectionRule_of_ready hin hst hs hp heSw (eq_false_of_ne_true (mt test.1 hret)))⟩

end Sys2Proof.Machine
end

section
/-! TIME_MARK in each reference state: a valid mark in Free, Failed, Acquiring and Holdover (R46, R47, R52, R54), agreement and
rejection in Locked (R49, R50), and the close evaluation that every step delivers (R45). -/

namespace Sys2Proof.Machine

/-! ## The judgement of a mark (R42, R47, R49) -/

theorem withinWindow_markError_iff (r : RefClock) (m us : Nat) :
    withinWindow (markError r m) us = true ↔ ((m : Int) * 1000000000 - (r.ntNow : Int)).natAbs ≤ us * 1000 := by
  simp [withinWindow, markError, secondNs, nsPerSecond]

/-- In Acquiring a valid mark carries the good count on: a mark has been counted before, the seconds follow one another and the
mark error lies within ten lock windows (R47). -/
def RefClock.CarriesOn (r : RefClock) (last m : Nat) : Prop :=
  (r.goodCount = 1 ∨ r.goodCount = 2) ∧ m = last + 1 ∧
    ((m : Int) * 1000000000 - (r.ntNow : Int)).natAbs ≤ 10 * r.lockWindow * 1000

theorem RefClock.carriesOn_iff {r : RefClock} {last : Nat} (hlast : r.lastSecond = some last) (hgood : r.goodCount ≤ 2) (m : Nat) :
    (decide (1 ≤ r.goodCount) && decide (r.lastSecond.map (· + 1) = some m)
      && withinWindow (markError r m) (10 * r.lockWindow)) = true ↔ r.CarriesOn last m := by
  have counted : 1 ≤ r.goodCount ↔ r.goodCount = 1 ∨ r.goodCount = 2 := by omega
  simp only [Bool.and_eq_true, decide_eq_true_eq, withinWindow_markError_iff, hlast, Option.map_some, Option.some.injEq,
    RefClock.CarriesOn, counted, and_assoc, eq_comm (a := last + 1)]

theorem RefClock.markAcquiring_of_carriesOn {r : RefClock} {last m : Nat} (hlast : r.lastSecond = some last)
    (hgood : r.goodCount ≤ 2) (hreject : r.rejectCount = 0) (h : r.CarriesOn last m) :
    r.markAcquiring m =
      { r with
        ntNow := m * 1000000000, state := if r.goodCount + 1 = 3 then .locked else .acquiring, lastSecond := some m,
        goodCount := r.goodCount + 1, markTimer := some 0 } := by
  simp only [RefClock.markAcquiring, if_pos ((RefClock.carriesOn_iff hlast hgood m).2 h), hreject, ite_self, secondNs, nsPerSecond]

theorem RefClock.markAcquiring_of_not_carriesOn {r : RefClock} {last m : Nat} (hlast : r.lastSecond = some last)
    (hgood : r.goodCount ≤ 2) (h : ¬ r.CarriesOn last m) :
    r.markAcquiring m =
      { r with ntNow := m * 1000000000, state := .acquiring, lastSecond := some m, goodCount := 1, markTimer := some 0 } := by
  simp only [RefClock.markAcquiring, if_neg (mt (RefClock.carriesOn_iff hlast hgood m).1 h), secondNs, nsPerSecond]
  rfl

theorem RefClock.expected_of_last {r : RefClock} {last : Nat} (hlast : r.lastSecond = some last) (hne : last ≠ 4294967295)
    (hlt : last < 2 ^ 32) : r.expected = some (last + 1) := by
  have hsucc : last + 1 < 2 ^ 32 := by omega
  simp only [RefClock.expected, hlast, if_pos hsucc]

theorem RefClock.expected_of_max {r : RefClock} (hlast : r.lastSecond = some 4294967295) : r.expected = none := by
  simp [RefClock.expected, hlast]

theorem RefClock.agrees_iff (r : RefClock) (mark : Mark) (x : Nat) :
    r.agrees mark x = true ↔ (mark = .bare ∨ ∃ m : BitVec 32, mark = .valid m ∧ m.toNat = x) ∧
      ((x : Int) * 1000000000 - (r.ntNow : Int)).natAbs ≤ r.lockWindow * 1000 := by
  cases mark with
  | valid m => simp only [RefClock.agrees, Bool.and_eq_true, decide_eq_true_eq, withinWindow_markError_iff, reduceCtorEq, false_or,
      Mark.valid.injEq, exists_eq_left']
  | bare => simp only [RefClock.agrees, Bool.true_and, withinWindow_markError_iff, true_or, true_and]

/-- The last second number after a rejection: advanced where it has a successor (R49). -/
def keptSecond (last : Nat) : Nat := if last = 4294967295 then last else last + 1

theorem RefClock.reject_eq {r : RefClock} {last : Nat} (hlast : r.lastSecond = some last) (hlt : last < 2 ^ 32) :
    r.reject =
      if 3 ≤ r.rejectCount + 1 then
        { r with
          state := .acquiring, lastSecond := some (keptSecond last), goodCount := 0, rejectCount := 0, markTimer := some 0 }
      else { r with lastSecond := some (keptSecond last), rejectCount := r.rejectCount + 1, markTimer := some 0 } := by
  by_cases hmax : last = 4294967295
  · subst hmax
    simp only [RefClock.reject, RefClock.expected_of_max hlast, hlast, keptSecond, if_pos]
  · simp only [RefClock.reject, RefClock.expected_of_last hlast hmax hlt, keptSecond, if_neg hmax]

/-! ## A mark in each reference state (R46 to R54) -/

theorem RefClock.mark_valid_of_free_or_failed {r : RefClock} (h : r.state = .free ∨ r.state = .failed) (m : BitVec 32) :
    r.mark (.valid m) = (r.acquireFrom m.toNat, true) := by
  obtain h | h := h <;> simp only [RefClock.mark, h]

theorem RefClock.mark_valid_of_acquiring {r : RefClock} (h : r.state = .acquiring) (m : BitVec 32) :
    r.mark (.valid m) = (r.markAcquiring m.toNat, true) := by simp only [RefClock.mark, h]

theorem RefClock.mark_valid_of_holdover {r : RefClock} (h : r.state = .holdover) (m : BitVec 32) :
    r.mark (.valid m) = (r.markHoldover m.toNat, true) := by simp only [RefClock.mark, h]

theorem RefClock.mark_of_locked {r : RefClock} (h : r.state = .locked) (mark : Mark) : r.mark mark = r.markLocked mark := by
  simp only [RefClock.mark, h]

theorem RefClock.mark_bare_of_not_locked {r : RefClock} (h : r.state ≠ .locked) : r.mark .bare = (r, false) := by
  cases hr : r.state with
  | locked => exact absurd hr h
  | free | acquiring | holdover | failed => simp only [RefClock.mark, hr]

theorem RefClock.acquireFrom_eq (r : RefClock) (m : Nat) :
    r.acquireFrom m =
      { r with
        ntNow := m * 1000000000, state := .acquiring, lastSecond := some m, goodCount := 1, rejectCount := 0,
        markTimer := some 0, holdoverTimer := none } := rfl

theorem RefClock.markHoldover_eq (r : RefClock) (m : Nat) :
    r.markHoldover m =
      if m = (r.ntNow + 500000000) / 1000000000 ∧
          ((m : Int) * 1000000000 - (r.ntNow : Int)).natAbs ≤ 100 * r.lockWindow * 1000 then
        { r with
          ntNow := m * 1000000000, state := .locked, lastSecond := some m, rejectCount := 0, markTimer := some 0,
          holdoverTimer := none }
      else r.acquireFrom m := by
  simp only [RefClock.markHoldover, RefClock.nearestSecond, withinWindow_markError_iff, secondNs, nsPerSecond]

/-- A mark in Locked is in agreement: it names the second after the last, or none, within the lock window (R49). -/
def RefClock.InAgreement (r : RefClock) (mark : Mark) (last : Nat) : Prop :=
  last ≠ 4294967295 ∧ (mark = .bare ∨ ∃ m : BitVec 32, mark = .valid m ∧ m.toNat = last + 1) ∧
    (((last + 1 : Nat) : Int) * 1000000000 - (r.ntNow : Int)).natAbs ≤ r.lockWindow * 1000

theorem RefClock.markLocked_of_inAgreement {r : RefClock} {mark : Mark} {last : Nat} (hlast : r.lastSecond = some last)
    (hlt : last < 2 ^ 32) (h : r.InAgreement mark last) :
    r.markLocked mark =
      ({ r with
        ntNow := (last + 1) * 1000000000, lastSecond := some (last + 1), rejectCount := 0, markTimer := some 0 }, true) := by
  obtain ⟨hne, hagrees⟩ := h
  simp only [RefClock.markLocked, RefClock.expected_of_last hlast hne hlt, if_pos ((r.agrees_iff mark (last + 1)).2 hagrees),
    secondNs, nsPerSecond]

theorem RefClock.markLocked_of_not_inAgreement {r : RefClock} {mark : Mark} {last : Nat} (hlast : r.lastSecond = some last)
    (hlt : last < 2 ^ 32) (h : ¬ r.InAgreement mark last) : r.markLocked mark = (r.reject, false) := by
  by_cases hmax : last = 4294967295
  · subst hmax
    simp only [RefClock.markLocked, RefClock.expected_of_max hlast]
  · have hrejected : ¬ r.agrees mark (last + 1) = true := fun ha => h ⟨hmax, (r.agrees_iff mark (last + 1)).1 ha⟩
    simp only [RefClock.markLocked, RefClock.expected_of_last hlast hmax hlt, if_neg hrejected]

/-! ## TIME_MARK (R42, R45) -/

theorem setRef_self (s : State) : s.setRef s.ref = s := if_pos rfl

theorem exec_timeMark_of_step {s : State} {mark : Mark} {r : RefClock} (hf : s.failureSignal = false)
    (h : s.ref.mark mark = (r, true)) : exec (.timeMark mark) s = .next (s.setRef r).closeEvaluation := by
  change execTimeMark mark s = _
  simp only [execTimeMark, h, if_true, withhold_of_settled hf]

theorem exec_timeMark_of_noStep {s : State} {mark : Mark} {r : RefClock} (h : s.ref.mark mark = (r, false)) :
    exec (.timeMark mark) s = .next (s.setRef r) := by
  change execTimeMark mark s = _
  simp only [execTimeMark, h]
  rfl

theorem exec_timeMark_bare_of_not_locked {s : State} (h : s.ref.state ≠ .locked) : exec (.timeMark .bare) s = .next s := by
  rw [exec_timeMark_of_noStep (RefClock.mark_bare_of_not_locked h), setRef_self]

/-- Settles O21: each reference state is one equation of the unit's mark; in Acquiring the good count turns on whether the mark
carries it on, in Holdover the re-entry on the nearest second. -/
theorem marksOutsideLocked : Obligations.MarksOutsideLocked := by
  have bare {s : State} {q : RefState} (h : s.ref.state = q) (hq : q ≠ .locked) : exec (.timeMark .bare) s = .next s :=
    exec_timeMark_bare_of_not_locked (h ▸ hq)
  constructor
  case left =>
    intro s
    refine ⟨fun h => ⟨fun m hf => ?_, h.elim (bare · nofun) (bare · nofun)⟩, fun h => ⟨?_, bare h nofun⟩⟩
    · exact exec_timeMark_of_step hf (RefClock.mark_valid_of_free_or_failed h m)
    · intro m last hf hlast hgood hreject err good
      rw [exec_timeMark_of_step hf (RefClock.mark_valid_of_acquiring h m)]
      by_cases hon : s.ref.CarriesOn last m.toNat
      · have hcount : good = s.ref.goodCount + 1 := if_pos hon
        rw [RefClock.markAcquiring_of_carriesOn hlast hgood hreject hon, hcount]
      · have hcount : good = 1 := if_neg hon
        rw [RefClock.markAcquiring_of_not_carriesOn hlast hgood hon, hcount]
        rfl
  case right =>
    intro s h
    refine ⟨?_, bare h nofun⟩
    intro m hf nearest err
    rw [exec_timeMark_of_step hf (RefClock.mark_valid_of_holdover h m), RefClock.markHoldover_eq]
    exact ⟨fun hre => by rw [if_pos hre], fun hre => by rw [if_neg hre, RefClock.acquireFrom_eq]⟩

/-- Settles O22: a mark in agreement steps; any other is one rejection, and the reject count before it says whether it is the
third. -/
theorem markInLocked : Obligations.MarkInLocked := by
  intro s mark last hstate hlast hlt x err agrees kept
  have rejected (h : ¬ agrees) : exec (.timeMark mark) s = .next (s.setRef s.ref.reject) :=
    exec_timeMark_of_noStep
      ((RefClock.mark_of_locked hstate mark).trans (RefClock.markLocked_of_not_inAgreement hlast hlt h))
  refine ⟨fun h hf => ?_, fun h hfew => ?_, fun h hthird => ?_⟩
  · exact exec_timeMark_of_step hf
      ((RefClock.mark_of_locked hstate mark).trans (RefClock.markLocked_of_inAgreement hlast hlt h))
  · rw [rejected h, RefClock.reject_eq hlast hlt, if_neg (by omega)]
    rfl
  · rw [rejected h, RefClock.reject_eq hlast hlt, if_pos (by omega)]
    rfl

end Sys2Proof.Machine
end

section
/-! Timing and sample arithmetic: the span clamp and the sum of stage 4 (R60, R61, R63), the drift term (R62), the global slot and
its residual (R64, R65), the samples of a payload (R68, R69), and the quality flags these give (R67). -/

namespace Sys2Proof.Machine

/-! ## Quality flags (R67) -/

theorem getLsbD_flagIf (c : Bool) (f : QualitySet) (i : Nat) : (flagIf c f).getLsbD i = (c && f.getLsbD i) := by
  cases c <;> simp [flagIf]

/-- Each flag of a corrected packet stands at the position of its constant, under its own condition. -/
theorem getLsbD_quality_correctPacket (c : Correction) (isPrevious : Bool) (ch : Channel) (pk : StationPacket) (i : Nat) :
    (correctPacket c isPrevious ch pk).quality.getLsbD i =
      ((isPrevious && Quality.previous.getLsbD i) || (c.isDefault && Quality.uncorrected.getLsbD i)
        || (pk.unlocked && Quality.stationUnlocked.getLsbD i)
        || (isExtrapolated c pk.time && Quality.extrapolated.getLsbD i)
        || (decide (netSum c pk.time < 0) && Quality.clamped.getLsbD i)
        || ((rawSamples ch.word ch.order pk.count pk.payload).any (fun v => decide (v = absentMark))
          && Quality.clamped.getLsbD i)) := by
  simp only [correctPacket, BitVec.getLsbD_or, getLsbD_flagIf]

theorem extrapolated_correctPacket (c : Correction) (isPrevious : Bool) (ch : Channel) (pk : StationPacket) :
    (correctPacket c isPrevious ch pk).quality.getLsbD 1 = isExtrapolated c pk.time := by
  rw [getLsbD_quality_correctPacket]
  simp [Quality.previous, Quality.uncorrected, Quality.stationUnlocked, Quality.extrapolated, Quality.clamped]

theorem clamped_correctPacket_iff (c : Correction) (isPrevious : Bool) (ch : Channel) (pk : StationPacket) :
    (correctPacket c isPrevious ch pk).quality.getLsbD 4 = true ↔
      netSum c pk.time < 0 ∨ absentMark ∈ rawSamples ch.word ch.order pk.count pk.payload := by
  rw [getLsbD_quality_correctPacket]
  simp [Quality.previous, Quality.uncorrected, Quality.stationUnlocked, Quality.extrapolated, Quality.clamped]

/-! ## The drift term (R62) -/

theorem driftTerm_of_neg {clamped drift : Int} (h : clamped * drift < 0) :
    driftTerm clamped drift = -(((clamped * drift).natAbs + 500000) / 1000000 : Nat) := if_pos h

theorem driftTerm_of_nonneg {clamped drift : Int} (h : 0 ≤ clamped * drift) :
    driftTerm clamped drift = (((clamped * drift).natAbs + 500000) / 1000000 : Nat) := if_neg (Int.not_lt.2 h)

theorem natAbs_driftTerm (clamped drift : Int) :
    (driftTerm clamped drift).natAbs = ((clamped * drift).natAbs + 500000) / 1000000 := by
  rcases lt_or_ge (clamped * drift) 0 with hneg | hpos
  · rw [driftTerm_of_neg hneg, Int.natAbs_neg, Int.natAbs_natCast]
  · rw [driftTerm_of_nonneg hpos, Int.natAbs_natCast]

theorem natAbs_product_le {clamped drift : Int} (hc : clamped.natAbs ≤ 86400000000) (hd : drift.natAbs ≤ 250000) :
    (clamped * drift).natAbs ≤ 21600000000000000 :=
  Int.natAbs_mul clamped drift ▸ Nat.mul_le_mul hc hd

theorem natAbs_driftTerm_le {clamped drift : Int} (hc : clamped.natAbs ≤ 86400000000) (hd : drift.natAbs ≤ 250000) :
    (driftTerm clamped drift).natAbs ≤ 21600000000 := by
  have hp := natAbs_product_le hc hd
  rw [natAbs_driftTerm]
  omega

/-- Settles O13: on either side of zero the drift term is one quotient of the product's magnitude, whose rounding is linear
arithmetic. -/
theorem driftTermRounding : Obligations.DriftTermRounding := by
  intro clamped drift p x
  have rounding : (0 ≤ p → 0 ≤ x) ∧ (p ≤ 0 → x ≤ 0) ∧ (p = 0 → x = 0) ∧ 2 * (x * 1000000 - p).natAbs ≤ 1000000 ∧
      (2 * (x * 1000000 - p).natAbs = 1000000 → p.natAbs < (x * 1000000).natAbs) := by
    rcases lt_or_ge p 0 with hneg | hpos
    · have hx : x = -((p.natAbs + 500000) / 1000000 : Nat) := driftTerm_of_neg hneg
      clear_value x p
      omega
    · have hx : x = ((p.natAbs + 500000) / 1000000 : Nat) := driftTerm_of_nonneg hpos
      clear_value x p
      omega
  obtain ⟨hnonneg, hnonpos, hzero, hnearest, htie⟩ := rounding
  exact ⟨natAbs_driftTerm clamped drift, hnonneg, hnonpos, hzero, hnearest, htie,
    fun hc hd => ⟨natAbs_product_le hc hd, natAbs_driftTerm_le hc hd⟩⟩

/-! ## The span clamp and network time (R60, R61, R63) -/

theorem spanUs_nonneg (c : Correction) : 0 ≤ spanUs c := by
  unfold spanUs
  omega

theorem clampToSpan_of_within {span d : Int} (hhi : d ≤ span) (hlo : -span ≤ d) : clampToSpan span d = d := by
  rw [clampToSpan, if_neg (Int.not_lt.2 hhi), if_neg (Int.not_lt.2 hlo)]

theorem clampToSpan_of_above {span d : Int} (h : span < d) : clampToSpan span d = span := if_pos h

theorem clampToSpan_of_below {span d : Int} (hspan : 0 ≤ span) (h : d < -span) : clampToSpan span d = -span := by
  rw [clampToSpan, if_neg (by omega), if_pos h]

theorem natAbs_clampToSpan_le {span : Int} (hspan : 0 ≤ span) (d : Int) : (clampToSpan span d).natAbs ≤ span.natAbs := by
  unfold clampToSpan
  split_ifs <;> omega

theorem isExtrapolated_iff (c : Correction) (t : Nat) :
    isExtrapolated c t = true ↔ spanUs c < elapsedUs c t ∨ elapsedUs c t < -spanUs c := decide_eq_true_iff

theorem natAbs_clampedElapsed_le {c : Correction} (hc : c.InRange) (t : Nat) :
    (clampToSpan (spanUs c) (elapsedUs c t)).natAbs ≤ 86400000000 := by
  have hclamp := natAbs_clampToSpan_le (spanUs_nonneg c) (elapsedUs c t)
  have hspan := hc.span
  have hus : (spanUs c).natAbs = c.span * 1000000 := by
    unfold spanUs
    omega
  omega

theorem netSum_bounds {c : Correction} (hc : c.InRange) {t : Nat} (ht : t < 2 ^ 48) :
    -521600000000 ≤ netSum c t ∧ netSum c t ≤ 281475498310655000 := by
  have hdrift : c.drift.natAbs ≤ 250000 := by
    have := hc.drift
    omega
  have hterm := natAbs_driftTerm_le (natAbs_clampedElapsed_le hc t) hdrift
  have hoffset := hc.offset
  unfold netSum
  omega

theorem netTime_of_nonneg {c : Correction} {t : Nat} (h : 0 ≤ netSum c t) : (netTime c t : Int) = netSum c t :=
  Int.toNat_of_nonneg h

theorem netTime_of_neg {c : Correction} {t : Nat} (h : netSum c t < 0) : netTime c t = 0 :=
  Int.toNat_of_nonpos (Int.le_of_lt h)

/-- Settles O12: within the span, above it and below it are the three cases of the clamp, and the sum's bounds are those of its
three terms. -/
theorem stationTimeToNetworkTime : Obligations.StationTimeToNetworkTime := by
  constructor
  case left =>
    intro c t ht href d span
    have hd : d = elapsedUs c t := rfl
    have hs : span = spanUs c := rfl
    have hspan := spanUs_nonneg c
    refine ⟨hd.symm, by omega, by omega, fun hhi hlo => ⟨?_, ?_⟩, fun h => ⟨?_, ?_⟩, fun h => ⟨?_, ?_⟩⟩
    · exact clampToSpan_of_within hhi hlo
    · exact eq_false_of_ne_true (mt (isExtrapolated_iff c t).1 (by omega))
    · exact clampToSpan_of_above h
    · exact (isExtrapolated_iff c t).2 (.inl h)
    · exact clampToSpan_of_below hspan h
    · exact (isExtrapolated_iff c t).2 (.inr h)
  case right =>
    intro c t hc ht sum
    obtain ⟨hlo, hhi⟩ := netSum_bounds hc ht
    refine ⟨netTime_of_nonneg, netTime_of_neg, natAbs_clampedElapsed_le hc t, hlo, hhi, ?_⟩
    rintro isPrevious ch pk rfl
    exact ⟨(extrapolated_correctPacket c isPrevious ch pk).trans,
      fun h => (clamped_correctPacket_iff c isPrevious ch pk).2 (.inl h)⟩

/-! ## Global slot and residual (R64, R65) -/

/-- The periods of the ten rate codes in ns, in the order of the table. -/
theorem periodNs_table {rate : Nat} (h1 : 1 ≤ rate) (h10 : rate ≤ 10) :
    ([1000000000, 100000000, 50000000, 25000000, 20000000, 10000000, 5000000, 4000000, 2000000, 1000000] : List Nat)[rate - 1]?
      = some (periodNs rate) := by
  interval_cases rate <;> rfl

theorem periodNs_even_and_ge {rate : Nat} (h1 : 1 ≤ rate) (h10 : rate ≤ 10) :
    periodNs rate = 2 * (periodNs rate / 2) ∧ 1000000 ≤ periodNs rate := by
  have hmem := List.mem_of_getElem? (periodNs_table h1 h10)
  simp only [List.mem_cons, List.not_mem_nil, or_false] at hmem
  omega

theorem globalSlotOf_mul_le (nt p : Nat) : globalSlotOf nt p * p ≤ nt + p / 2 := Nat.div_mul_le_self _ _

theorem lt_globalSlotOf_mul_add {p : Nat} (hp : 0 < p) (nt : Nat) : nt + p / 2 < globalSlotOf nt p * p + p :=
  Nat.lt_div_mul_add hp

/-- The largest global slot: that of the largest network time under the shortest period. -/
theorem globalSlotOf_le {nt p : Nat} (hp : 1000000 ≤ p) (hnt : nt ≤ 281475498310655000) : globalSlotOf nt p ≤ 281475498311 := by
  have hpast : nt + p / 2 < 281475498312 * p := by omega
  exact Nat.le_of_lt_succ (Nat.div_lt_of_lt_mul (Nat.mul_comm _ p ▸ hpast))

/-- The slot at or before `nt` while `nt` lies in the first half of its period, the next one from the half-way point on. -/
theorem globalSlotOf_eq {p : Nat} (heven : p = 2 * (p / 2)) (hp : 0 < p) (nt : Nat) :
    globalSlotOf nt p = nt / p + if p / 2 ≤ nt % p then 1 else 0 := by
  have hhalf : p / 2 < p := by omega
  have hcarry : p ≤ nt % p + p / 2 ↔ p / 2 ≤ nt % p := by omega
  rw [globalSlotOf, Nat.add_div hp, Nat.div_eq_of_lt hhalf, Nat.mod_eq_of_lt hhalf, Nat.add_zero]
  simp only [hcarry]

theorem residualOf_eq {p : Nat} (heven : p = 2 * (p / 2)) (hp : 0 < p) (nt : Nat) :
    residualOf nt p = ((nt % p : Nat) : Int) - if p / 2 ≤ nt % p then (p : Int) else 0 := by
  have hnt := Nat.div_add_mod' nt p
  rw [residualOf, globalSlotOf_eq heven hp]
  split_ifs <;> simp only [Nat.add_mul, Nat.one_mul, Nat.add_zero] <;> omega

/-- Settles O14: a packet's slot and residual are the model's own; the residual is the remainder of `nt`, less one period from
the half-way point on. -/
theorem globalSlotAndResidual : Obligations.GlobalSlotAndResidual := by
  refine ⟨fun record isPrevious ch pk => ⟨rfl, rfl⟩, ?_⟩
  intro nt rate h1 h10 p g
  obtain ⟨heven, hge⟩ : p = 2 * (p / 2) ∧ 1000000 ≤ p := periodNs_even_and_ge h1 h10
  have hp : 0 < p := by omega
  have hres := residualOf_eq heven hp nt
  have hmod := Nat.mod_lt nt hp
  refine ⟨periodNs_table h1 h10, heven, rfl, globalSlotOf_mul_le nt p, lt_globalSlotOf_mul_add hp nt, fun hnt => ?_, ?_, ?_⟩
  · exact globalSlotOf_le hge hnt
  · exact congrArg ((nt : Int) - ·) (Nat.cast_mul g p)
  · rw [hres]
    clear_value p
    split_ifs <;> omega

/-! ## Samples (R68, R69) -/

theorem length_rawSamples (word : SampleWord) (order : SampleOrder) (count : Nat) (bs : List Byte) :
    (rawSamples word order count bs).length = count := by
  induction count generalizing bs with
  | zero => rfl
  | succ count ih => simp [rawSamples, ih]

/-- Sample `k` is read from the `k`-th run of `word.width` payload bytes. -/
theorem getElem?_rawSamples (word : SampleWord) (order : SampleOrder) {count k : Nat} (h : k < count) (bs : List Byte) :
    (rawSamples word order count bs)[k]?
      = some (extendWord word (assembleWord order ((bs.drop (k * word.width)).take word.width))) := by
  induction count generalizing k bs with
  | zero => exact absurd h (Nat.not_lt_zero k)
  | succ count ih =>
    cases k with
    | zero => simp [rawSamples]
    | succ k =>
      rw [rawSamples, List.getElem?_cons_succ, ih (Nat.lt_of_succ_lt_succ h), List.drop_drop, Nat.succ_mul, Nat.add_comm]

/-- Sign extension keeps the value that a word has in its own width. -/
theorem toInt_extendWord (word : SampleWord) (n : Nat) :
    (extendWord word n).toInt = (BitVec.ofNat (8 * word.width) n).toInt := by
  cases word with
  | bits16 => exact BitVec.toInt_signExtend_of_le (by decide)
  | bits24 => exact BitVec.toInt_signExtend_of_le (by decide)
  | bits32 => rfl

theorem eq_absentMark_iff (v : Sample) : v = absentMark ↔ v.toInt = -2147483648 :=
  BitVec.toInt_inj.symm

theorem toInt_clampSample (v : Sample) :
    (clampSample v).toInt = if v.toInt = -2147483648 then -2147483647 else v.toInt := by
  simp only [clampSample, eq_absentMark_iff]
  split_ifs <;> rfl

/-- A word narrower than 32 bits does not reach the absent mark. -/
theorem toInt_extendWord_ne_absent {word : SampleWord} (h : word ≠ .bits32) (n : Nat) :
    (extendWord word n).toInt ≠ -2147483648 := by
  have hlow := BitVec.le_toInt (BitVec.ofNat (8 * word.width) n)
  rw [toInt_extendWord]
  cases word with
  | bits16 => simp only [SampleWord.width] at hlow ⊢; omega
  | bits24 => simp only [SampleWord.width] at hlow ⊢; omega
  | bits32 => exact absurd rfl h

/-- Settles O15: the sample is read from its own run of bytes, sign extension keeps its value, and the clamp turns on the absent
mark alone. -/
theorem sampleConversion : Obligations.SampleConversion := by
  intro record isPrevious ch pk k hk w word n v
  have hw : ch.word.width = w := by cases hword : ch.word <;> simp [w, hword, SampleWord.width]
  have hn : assembleWord ch.order word = n := by cases horder : ch.order <;> simp [n, horder, assembleWord]
  have hv : (extendWord ch.word n).toInt = v := by
    rw [toInt_extendWord]
    cases hword : ch.word <;> simp [v, hword, SampleWord.width]
  have hraw : (rawSamples ch.word ch.order pk.count pk.payload)[k]? = some (extendWord ch.word n) := by
    rw [getElem?_rawSamples ch.word ch.order hk, hw, hn]
  refine ⟨hw, clampSample (extendWord ch.word n), ?_, ?_, ?_, ?_, ?_⟩
  · exact (List.getElem?_map).trans (congrArg (Option.map clampSample) hraw)
  · rw [toInt_clampSample, hv]
  · exact fun hword => hv ▸ toInt_extendWord_ne_absent hword n
  · intro habsent
    have hmark : extendWord ch.word n = absentMark := (eq_absentMark_iff _).2 (hv.trans habsent)
    exact (clamped_correctPacket_iff record isPrevious ch pk).2 (.inr (hmark ▸ List.mem_of_getElem? hraw))
  · exact (List.length_map _).trans (length_rawSamples _ _ _ _)

end Sys2Proof.Machine
end

section
/-! Rate codes under an epoch length (R15) and the four checks of SET-PLAN (R75). -/

namespace Sys2Proof.Machine

/-- A directive that never waits does what its own rule answers (R163). -/
theorem runDirective_of_rule {s : State} {p : Progress} {e : Entry} {rest : List Entry} {code len : Nat}
    {body : State → List Byte → DirResult} {r : DirResult} (h : Takes s p e rest code len) (hr : body s e.params = r) :
    runDirective code len noWait body s = r.state.finishEntry p e rest r.outcome r.data :=
  hr ▸ runDirective_takes h rfl

/-! ## Rate codes and epoch lengths (R15) -/

theorem samplesPerEpoch_eq_some_iff {rate : Nat} (h : rate ≠ 0) (l n : Nat) :
    samplesPerEpoch rate l = some n ↔ n * 1000 = rateHz rate * l ∧ 1 ≤ n ∧ n ≤ 512 := by
  rw [samplesPerEpoch, if_neg h]
  simp only
  split
  · rw [Option.some.injEq]
    omega
  · simp only [reduceCtorEq, false_iff]
    omega

/-- The rate and the period of a rate code are each other's reciprocal, in seconds. -/
theorem rateHz_mul_periodNs {rate : Nat} (h : rate ≠ 0) (h10 : rate ≤ 10) : rateHz rate * periodNs rate = 1000000000 := by
  have h1 : 1 ≤ rate := Nat.one_le_iff_ne_zero.2 h
  interval_cases rate <;> rfl

/-- The n samples of an epoch take n periods, which are the epoch length. -/
theorem samples_mul_period {rate l n : Nat} (h : rate ≠ 0) (h10 : rate ≤ 10) (hn : samplesPerEpoch rate l = some n) :
    n * periodNs rate = l * 1000000 := by
  obtain ⟨hfit, -, -⟩ := (samplesPerEpoch_eq_some_iff h l n).1 hn
  have scaled : n * periodNs rate * 1000 = l * 1000000 * 1000 := calc
    n * periodNs rate * 1000 = n * 1000 * periodNs rate := by ring
    _ = l * (rateHz rate * periodNs rate) := by rw [hfit]; ring
    _ = l * 1000000 * 1000 := by rw [rateHz_mul_periodNs h h10]; ring
  omega

/-! ## SET-PLAN (R75) -/

theorem exec_setPlan_of_rule {s : State} {p : Progress} {e : Entry} {rest : List Entry} {r : DirResult}
    (h : Takes s p e rest 0x02 6) (hr : setPlanRule s e.params = r) :
    exec .setPlan s = .next (r.state.finishEntry p e rest r.outcome r.data) :=
  congrArg Host.Outcome.next (runDirective_of_rule h hr)

theorem readFailureAction_of_le {a : Nat} (h : a ≤ 1) : readFailureAction a = some (if a = 0 then .goOn else .withhold) := by
  interval_cases a <;> rfl

theorem readFailureAction_of_lt {a : Nat} (h : 1 < a) : readFailureAction a = none := by
  match a, h with
  | _ + 2, _ => rfl

theorem planInRange_iff (l w h : Nat) :
    planInRange l w h = true ↔ (l = 250 ∨ l = 500 ∨ l = 1000 ∨ l = 2000) ∧ 2 ≤ w ∧ w ≤ 8 ∧ h ≤ 30000 := by
  simp only [planInRange, Bool.and_eq_true, Bool.or_eq_true, decide_eq_true_eq, and_assoc, or_assoc]

theorem channelsFit_iff (s : State) (l : Nat) :
    s.channelsFit l = true ↔
      ∀ slot st, (slot, st) ∈ s.stations → ∀ c, (samplesPerEpoch (st.channels.get c).rate l).isSome = true := by
  simp [State.channelsFit, Quad.toList, Quad.get, Fin.forall_fin_succ]

/-- Check 3, read as the greatest hold allowance that a window of depth `w` covers. -/
theorem windowDeep_iff {l w : Nat} (hl : 0 < l) (hw : 2 ≤ w) (h : Nat) :
    ¬ w < (h + l - 1) / l + 2 ↔ h ≤ (w - 2) * l := by
  have ceiling : (h + l - 1) / l ≤ w - 2 ↔ h + l - 1 ≤ l * (w - 2) + (l - 1) := Nat.div_le_iff_le_mul_add_pred hl
  rw [Nat.mul_comm (w - 2)]
  omega

/-- The parameters of a SET-PLAN are in range: check 1 (R75). -/
def SetPlanInRange (ps : List Byte) : Prop :=
  (fieldAt ps 0 2 = 250 ∨ fieldAt ps 0 2 = 500 ∨ fieldAt ps 0 2 = 1000 ∨ fieldAt ps 0 2 = 2000) ∧ 2 ≤ fieldAt ps 2 1 ∧
    fieldAt ps 2 1 ≤ 8 ∧ fieldAt ps 3 2 ≤ 30000 ∧ fieldAt ps 5 1 ≤ 1

theorem setPlanRule_of_outOfRange (s : State) {ps : List Byte} (h : ¬ SetPlanInRange ps) :
    setPlanRule s ps = .leave s .refusedRange := by
  rcases Nat.lt_or_ge 1 (fieldAt ps 5 1) with hlt | hle
  · simp only [setPlanRule, readFailureAction_of_lt hlt]
  · have hplan : ¬ planInRange (fieldAt ps 0 2) (fieldAt ps 2 1) (fieldAt ps 3 2) = true := fun hp => by
      obtain ⟨hl, hw2, hw8, hh⟩ := (planInRange_iff _ _ _).1 hp
      exact h ⟨hl, hw2, hw8, hh, hle⟩
    simp [setPlanRule, readFailureAction_of_le hle, hplan]

/-- In range, the checks that remain are those of the store state, the window depth and the channels, in this order. -/
theorem setPlanRule_of_inRange (s : State) {ps : List Byte} (h : SetPlanInRange ps) :
    setPlanRule s ps =
      if s.store ≠ .idle then .leave s .refusedState
      else if fieldAt ps 2 1 < (fieldAt ps 3 2 + fieldAt ps 0 2 - 1) / fieldAt ps 0 2 + 2 then .leave s .refusedRange
      else if !s.channelsFit (fieldAt ps 0 2) then .leave s .refusedRange
      else
        .done
          { s with
            plan :=
              { epochLength := fieldAt ps 0 2, windowDepth := fieldAt ps 2 1, hold := fieldAt ps 3 2,
                failureAction := if fieldAt ps 5 1 = 0 then .goOn else .withhold } } := by
  obtain ⟨hl, hw2, hw8, hh, hle⟩ := h
  simp only [setPlanRule, readFailureAction_of_le hle, (planInRange_iff _ _ _).2 ⟨hl, hw2, hw8, hh⟩, Bool.not_true,
    Bool.false_eq_true, if_false]

/-- Settles O41: a rate code fits exactly by the arithmetic of R15, and each of SET-PLAN's checks is one branch of its rule. -/
theorem planAndSamplesPerEpoch : Obligations.PlanAndSamplesPerEpoch := by
  refine ⟨⟨fun l _ rate h10 => ⟨fun hr => if_pos hr, fun n hr => samplesPerEpoch_eq_some_iff hr l n,
    fun n hr hn => samples_mul_period hr h10 hn⟩, rfl, rfl⟩, ?_⟩
  intro s p e rest h l w hold action inRange deep fits
  have deep_iff : inRange → (¬ w < (hold + l - 1) / l + 2 ↔ deep) := fun ⟨hl, hw, _⟩ => windowDeep_iff (by omega) hw hold
  have fits_iff : s.channelsFit l = true ↔ fits := channelsFit_iff s l
  have atIdle := fun (hin : inRange) (hidle : s.store = .idle) =>
    (setPlanRule_of_inRange s hin).trans (if_neg (not_not_intro hidle))
  have deepAtIdle := fun (hin : inRange) (hidle : s.store = .idle) (hdeep : deep) =>
    (atIdle hin hidle).trans (if_neg ((deep_iff hin).2 hdeep))
  refine ⟨fun hout => ?_, fun hin hrun => ?_, fun hin hidle hdeep => ?_, fun hin hidle hdeep hfits => ?_,
    fun hin hidle hdeep hfits => ?_⟩
  · exact exec_setPlan_of_rule h (setPlanRule_of_outOfRange s hout)
  · exact exec_setPlan_of_rule h ((setPlanRule_of_inRange s hin).trans (if_pos hrun))
  · have shallow := not_not.1 (mt (deep_iff hin).1 hdeep)
    exact exec_setPlan_of_rule h ((atIdle hin hidle).trans (if_pos shallow))
  · have unfit : (!s.channelsFit l) = true := by simpa using mt fits_iff.1 hfits
    exact exec_setPlan_of_rule h ((deepAtIdle hin hidle hdeep).trans (if_pos unfit))
  · have fit : ¬ (!s.channelsFit l) = true := by simpa using fits_iff.2 hfits
    exact exec_setPlan_of_rule h ((deepAtIdle hin hidle hdeep).trans (if_neg fit))

end Sys2Proof.Machine
end

section
/-! A placed sample (R87, R91): the page it is written to, what taking that page does to the free-page list and the flags, and what
writing the word does to the segment and the sample memory. -/

namespace Sys2Proof.Machine

/-! ## Raising one flag -/

/-- Raising a flag moves the flags and the notice slot alone (R172, R175). -/
theorem raise_only (s : State) (f : EventFlag) :
    ∃ flags notice, s.raise f = { s with flags := flags, noticeSlot := notice } ∧ hasFlag flags f = true :=
  ⟨(s.raise f).flags, (s.raise f).noticeSlot, by unfold State.raise; split <;> rfl, hasFlag_raise_same s f⟩

/-! ## The page (R87) -/

/-- Taking a page removes the head of the free-page list, with PAGES-LOW exactly on the fall from 256 (R87). -/
theorem takePage_only (s : State) :
    ∃ flags notice, s.takePage = { s with freePages := s.freePages.tail, flags := flags, noticeSlot := notice } ∧
      (hasFlag flags .pagesLow = true ↔ hasFlag s.flags .pagesLow = true ∨ s.freePages.length = 256) := by
  have falls : (atLeast Config.pagesLow s.freePages && !atLeast Config.pagesLow s.freePages.tail) = true ↔
      s.freePages.length = 256 := by
    simp only [Bool.and_eq_true, Bool.not_eq_true', ← Bool.not_eq_true, atLeast_iff, List.length_tail, Config.pagesLow]
    omega
  unfold State.takePage
  simp only
  split
  · rename_i hlow
    obtain ⟨flags, notice, hraise, hset⟩ := raise_only { s with freePages := s.freePages.tail } .pagesLow
    exact ⟨flags, notice, hraise, by simp [hset, falls.1 hlow]⟩
  · rename_i hlow
    exact ⟨s.flags, s.noticeSlot, rfl, by simp [mt falls.2 hlow]⟩

/-- The page that a sample at slot `k` of segment `g` is written to: the one its entry names, or in Ready the head of the list (R87). -/
def State.HasPage (s : State) (g : Segment) (k : Nat) (page : PageNo) : Prop :=
  assocGet g.pages (k / 64) = some page ∨
    assocGet g.pages (k / 64) = none ∧ s.store = .ready ∧ s.freePages.head? = some page

theorem sampleAddress_of_page {s : State} {p : InHand} {n gs lo i : Nat} {r : EpochRecord} {page : PageNo}
    (hlo : s.eLo = some lo) (hge : lo ≤ gs / n) (hle : gs / n ≤ lo + s.plan.windowDepth - 1)
    (hopen : openRecord s.records (gs / n) = some (i, r)) (hclear : (r.segment p.slot p.channel).filled.getLsbD (gs % n) = false)
    (hpage : s.HasPage (r.segment p.slot p.channel) (gs % n) page) :
    s.sampleAddress p n gs = some (wordAddress page (gs % n % 64)) := by
  have within : ¬ (gs / n < lo ∨ lo + s.plan.windowDepth - 1 < gs / n) := by omega
  rcases hpage with hentry | ⟨hentry, hready, hhead⟩
  · simp [State.sampleAddress, hlo, within, hopen, hclear, hentry]
  · obtain ⟨rest, hfree⟩ := List.head?_eq_some_iff.1 hhead
    simp [State.sampleAddress, hlo, within, hopen, hclear, hentry, hready, hfree]

/-! ## The judgement (R90) -/

theorem placeSample_of_open {s : State} {p : InHand} {n gs lo i : Nat} {r : EpochRecord} (hlo : s.eLo = some lo)
    (hge : lo ≤ gs / n) (hle : gs / n ≤ lo + s.plan.windowDepth - 1) (hopen : openRecord s.records (gs / n) = some (i, r))
    (v : Sample) : s.placeSample p n gs v = s.placeInRecord i r p (gs % n) v := by
  have notLate : ¬ gs / n < lo := by omega
  have notFuture : ¬ lo + s.plan.windowDepth - 1 < gs / n := by omega
  simp [State.placeSample, hlo, notLate, notFuture, hopen]

/-- The state that a sample is written in, with `page` at hand: as it was, or with the head of the list taken (R87). -/
structure PageTaken (s u : State) (g : Segment) (k : Nat) : Prop where
  frame     : u = { s with freePages := u.freePages, flags := u.flags, noticeSlot := u.noticeSlot }
  named     : ∀ page, assocGet g.pages (k / 64) = some page → u.freePages = s.freePages ∧ u.flags = s.flags
  allocated : assocGet g.pages (k / 64) = none → u.freePages = s.freePages.tail ∧
    (hasFlag u.flags .pagesLow = true ↔ hasFlag s.flags .pagesLow = true ∨ s.freePages.length = 256)

/-- The last row of R90: a clear slot with a page at hand takes the sample. -/
theorem placeInRecord_writes {s : State} {i k : Nat} {r : EpochRecord} {p : InHand} {page : PageNo}
    (hclear : (r.segment p.slot p.channel).filled.getLsbD k = false) (hpage : s.HasPage (r.segment p.slot p.channel) k page)
    (v : Sample) :
    ∃ u, PageTaken s u (r.segment p.slot p.channel) k ∧ s.placeInRecord i r p k v = u.writeSample i p k page v := by
  rcases hpage with hentry | ⟨hentry, hready, hhead⟩
  · exact ⟨s, ⟨rfl, fun _ _ => ⟨rfl, rfl⟩, fun hnone => by simp [hentry] at hnone⟩,
      by simp [State.placeInRecord, hclear, hentry]⟩
  · obtain ⟨rest, hfree⟩ := List.head?_eq_some_iff.1 hhead
    obtain ⟨flags, notice, htake, hlow⟩ := takePage_only s
    refine ⟨s.takePage, ⟨?_, fun _ hsome => by simp [hentry] at hsome, fun _ => ?_⟩,
      by simp [State.placeInRecord, hclear, hentry, hready, hfree]⟩
    · rw [htake]
    · rw [htake]
      exact ⟨rfl, hlow⟩

/-! ## The word (R91) -/

/-- A segment with a sample of packet `p` placed at slot `k`, its word on `page` (R91). -/
def Segment.placed (g : Segment) (p : InHand) (k : Nat) (page : PageNo) : Segment :=
  { g with
    pages := assocPut g.pages (k / 64) page
    fill := g.fill + 1
    filled := g.filled ||| BitVec.twoPow 512 k
    residual := some (g.residual.getD p.residual)
    quality := g.quality ||| p.quality }

theorem writeSample_of_present {s : State} {i : Nat} {r : EpochRecord} (hr : assocGet s.records i = some r) (p : InHand) (k : Nat)
    (page : PageNo) (v : Sample) :
    s.writeSample i p k page v =
      { s with
        records := assocPut s.records i
          (r.putSegment p.slot p.channel ((r.segment p.slot p.channel).placed p k page))
        memory := writeWord s.memory (wordAddress page (k % 64)) v } := by
  simp [State.writeSample, hr, Segment.placed]

/-- Settles O19: the sample is the one word written, in the state that the page's taking leaves. -/
theorem placedSampleIsStored : Obligations.PlacedSampleIsStored := by
  intro s p n gs lo i r v hlo hge hle hopen hr _ k g t hclear page hpage
  obtain ⟨u, hu, hwrites⟩ := placeInRecord_writes (i := i) hclear hpage v
  have records : u.records = s.records := by rw [hu.frame]
  have ht : t =
      { u with
        records := assocPut s.records i (r.putSegment p.slot p.channel (g.placed p k page))
        memory := writeWord u.memory (wordAddress page (k % 64)) v } := by
    rw [← records, ← writeSample_of_present (records ▸ hr), ← hwrites]
    exact placeSample_of_open hlo hge hle hopen v
  rw [ht]
  refine ⟨sampleAddress_of_page hlo hge hle hopen hclear hpage, readWord_writeWord_same _ _ _,
    ⟨_, assocGet_put_same _ _ _, ?_, fun slot c hne => ?_⟩, fun j hj => assocGet_put_other _ _ hj, ?_, ?_, ?_, hu.named page,
    hu.allocated⟩
  · rw [segment_putSegment, if_pos ⟨rfl, rfl⟩]
    rfl
  · rw [segment_putSegment, if_neg fun heq => hne (Prod.ext heq.1 heq.2)]
  all_goals rw [hu.frame]

end Sys2Proof.Machine
end

section
/-! The directives on the store state: the window that STORE-START sets up (R34, R84, R94), STORE-SUSPEND and STORE-RESUME (R98, R99),
and the Open records that STORE-STOP frees (R88, R100). -/

namespace Sys2Proof.Machine

/-! ## Sparse data: a free key, and keys below a bound -/

theorem assocPut_perm_of_free {α : Type} {l : Assoc α} {k : Nat} (h : assocGet l k = none) (v : α) :
    (assocPut l k v).Perm ((k, v) :: l) := by
  induction l with
  | nil => exact .refl _
  | cons q t ih =>
    obtain ⟨j, w⟩ := q
    have hne : k ≠ j := fun heq => by simp [assocGet, heq] at h
    have ht : assocGet t k = none := by simpa [assocGet, hne] using h
    unfold assocPut
    split
    · exact .refl _
    · exact ((ih ht).cons (j, w)).trans (.swap _ _ t)

theorem assocGet_isSome_iff_mem_keys {α : Type} (l : Assoc α) (k : Nat) :
    (assocGet l k).isSome = true ↔ k ∈ l.map (·.1) := by
  induction l with
  | nil => simp
  | cons q t ih =>
    obtain ⟨j, w⟩ := q
    by_cases hk : k = j <;> simp [assocGet, hk, ih]

/-! ## The sixteen records (R76, R77) -/

/-- The epoch records are listed under rising numbers below sixteen (R76). -/
structure RecordsListed (rs : Assoc EpochRecord) : Prop where
  sorted  : assocSorted rs = true
  sixteen : ∀ i r, (i, r) ∈ rs → i < Config.epochRecords

theorem RecordsListed.keys_subset {rs : Assoc EpochRecord} (h : RecordsListed rs) : rs.map (·.1) ⊆ List.range 16 := by
  intro i hi
  obtain ⟨⟨j, r⟩, hp, rfl⟩ := List.mem_map.1 hi
  exact List.mem_range.2 (h.sixteen j r hp)

theorem RecordsListed.length_le {rs : Assoc EpochRecord} (h : RecordsListed rs) : rs.length ≤ 16 := by
  simpa using ((assocSorted_keys_nodup h.sorted).subperm h.keys_subset).length_le

theorem freeRecordNo_eq_some {rs : Assoc EpochRecord} {i : Nat} (h : freeRecordNo rs = some i) :
    assocGet rs i = none ∧ i < 16 := by
  have hmem : i ∈ List.range 16 := List.mem_of_find?_eq_some h
  exact ⟨by simpa using List.find?_some h, List.mem_range.1 hmem⟩

/-- No record is Free only when all sixteen are listed. -/
theorem RecordsListed.full {rs : Assoc EpochRecord} (h : RecordsListed rs) (hfull : freeRecordNo rs = none) : rs.length = 16 := by
  have every : List.range 16 ⊆ rs.map (·.1) := fun i hi => by
    have listed := List.find?_eq_none.1 hfull i hi
    rw [← assocGet_isSome_iff_mem_keys]
    simpa [Option.isSome_iff_ne_none] using listed
  have hge : 16 ≤ rs.length := by simpa using (List.nodup_range.subperm every).length_le
  exact Nat.le_antisymm h.length_le hge

theorem RecordsListed.put {rs : Assoc EpochRecord} (h : RecordsListed rs) {i : Nat} (hi : i < 16) (r : EpochRecord) :
    RecordsListed (assocPut rs i r) := by
  refine ⟨assocSorted_put i r h.sorted, fun j q hq => ?_⟩
  rcases mem_assocPut hq with heq | hq
  · cases heq
    exact hi
  · exact h.sixteen j q hq

/-! ## The Open records of a window (R80) -/

theorem length_openRecords (s : State) : s.openRecords.length = s.openCount := by
  rw [State.openRecords, (byEpoch_perm _).length_eq, State.openCount, State.countRecords, List.countP_eq_length_filter]

theorem byEpoch_pairwise (l : List (Nat × EpochRecord)) : (byEpoch l).Pairwise (fun x y => x.2.number ≤ y.2.number) := by
  have : Std.Total (fun x y : Nat × EpochRecord => x.2.number ≤ y.2.number) := ⟨fun x y => Nat.le_total _ _⟩
  have : IsTrans (Nat × EpochRecord) (fun x y => x.2.number ≤ y.2.number) := ⟨fun _ _ _ => Nat.le_trans⟩
  rw [byEpoch_eq_insertionSort]
  exact List.pairwise_insertionSort _ l

theorem byEpoch_openRecords (s : State) : byEpoch s.openRecords = s.openRecords := by
  rw [byEpoch_eq_insertionSort]
  exact (byEpoch_pairwise _).insertionSort_eq

/-- Epochs numbered consecutively from `lo` read the same in the order of the records as in epoch order. -/
theorem numbers_openRecords_of_perm {s : State} {lo n : Nat}
    (h : ((s.records.filter (fun q => q.2.inState .opened)).map (·.2.number)).Perm (List.range' lo n)) :
    s.openRecords.map (·.2.number) = List.range' lo n := by
  have ascending : (s.openRecords.map (·.2.number)).Pairwise (· ≤ ·) := List.pairwise_map.2 (byEpoch_pairwise _)
  have consecutive : (List.range' lo n).Pairwise (· ≤ ·) := List.pairwise_le_range'
  exact (((byEpoch_perm _).map _).trans h).eq_of_pairwise' ascending consecutive

/-- The window of Open records: consecutive from `lo`, at most W of them, among the sixteen records (R77, R80). -/
structure OpenFrom (lo : Nat) (s : State) : Prop where
  listed  : RecordsListed s.records
  numbers : s.openRecords.map (·.2.number) = List.range' lo s.openCount
  atMost  : s.openCount ≤ s.plan.windowDepth

theorem OpenFrom.of_noneOpen {s : State} (hl : RecordsListed s.records) (h : s.openCount = 0) (lo : Nat) : OpenFrom lo s := by
  have noneOpen : s.openRecords = [] := List.eq_nil_of_length_eq_zero ((length_openRecords s).trans h)
  exact ⟨hl, by simp [noneOpen, h], by simp [h]⟩

/-! ## Opening front epochs (R84) -/

theorem openEpoch_records_perm {s : State} {i : Nat} (h : assocGet s.records i = none) (e : Nat) :
    (s.openEpoch i e).records.Perm ((i, openedRecord s e) :: s.records) :=
  assocPut_perm_of_free h _

theorem openCount_openEpoch {s : State} {i : Nat} (h : assocGet s.records i = none) (e : Nat) :
    (s.openEpoch i e).openCount = s.openCount + 1 := by
  rw [State.openCount, State.countRecords, (openEpoch_records_perm h e).countP_eq]
  exact List.countP_cons_of_pos rfl

/-- The lowest missing front epoch, opened in a Free record, carries the window one further (R84). -/
theorem OpenFrom.openEpoch {lo i : Nat} {s : State} (h : OpenFrom lo s) (hfree : freeRecordNo s.records = some i)
    (hroom : s.openCount < s.plan.windowDepth) : OpenFrom lo (s.openEpoch i (lo + s.openCount)) := by
  obtain ⟨hnone, hi⟩ := freeRecordNo_eq_some hfree
  have count := openCount_openEpoch hnone (lo + s.openCount)
  have before : ((s.records.filter (fun q => q.2.inState .opened)).map (·.2.number)).Perm (List.range' lo s.openCount) :=
    h.numbers ▸ ((byEpoch_perm _).map _).symm
  have after : (((s.openEpoch i (lo + s.openCount)).records.filter (fun q => q.2.inState .opened)).map (·.2.number)).Perm
      ((lo + s.openCount) :: (s.records.filter (fun q => q.2.inState .opened)).map (·.2.number)) :=
    ((openEpoch_records_perm hnone _).filter _).map _
  refine ⟨h.listed.put hi _, numbers_openRecords_of_perm ?_, by simpa [count] using hroom⟩
  rw [count, List.range'_concat, Nat.one_mul]
  exact (after.trans (before.cons _)).trans (List.perm_append_singleton _ _).symm

/-- What opening front epochs from `lo` leaves: the window as wide as W and the Free records let it be, WINDOW-SHORT where they
are too few, and every record that was held (R84). -/
structure FrontsOpened (lo : Nat) (s t : State) : Prop where
  frame  : t = { s with records := t.records, flags := t.flags, noticeSlot := t.noticeSlot }
  window : OpenFrom lo t
  count  : t.openCount = min s.plan.windowDepth (s.openCount + (16 - s.records.length))
  short  : hasFlag t.flags .windowShort = true ↔
    hasFlag s.flags .windowShort = true ∨ s.openCount + (16 - s.records.length) < s.plan.windowDepth
  kept   : ∀ i r, assocGet s.records i = some r → assocGet t.records i = some r

theorem FrontsOpened.of_wide {lo : Nat} {s : State} (h : OpenFrom lo s) (hwide : s.plan.windowDepth ≤ s.openCount) :
    FrontsOpened lo s s where
  frame := rfl
  window := h
  count := by
    have atMost := h.atMost
    omega
  short := by simp [Nat.not_lt.2 (Nat.le_add_right_of_le hwide)]
  kept := fun _ _ hr => hr

theorem FrontsOpened.of_full {lo : Nat} {s : State} (h : OpenFrom lo s) (hroom : s.openCount < s.plan.windowDepth)
    (hfull : freeRecordNo s.records = none) : FrontsOpened lo s (s.raise .windowShort) := by
  obtain ⟨flags, notice, hraise, hset⟩ := raise_only s .windowShort
  have hlen := h.listed.full hfull
  rw [hraise]
  have count : s.openCount = min s.plan.windowDepth (s.openCount + (16 - s.records.length)) := by
    have atMost := h.atMost
    omega
  exact ⟨rfl, ⟨h.listed, h.numbers, h.atMost⟩, count, by simp [hset, hlen, hroom], fun _ _ hr => hr⟩

theorem FrontsOpened.of_openEpoch {lo i : Nat} {s t : State} (h : OpenFrom lo s) (hfree : freeRecordNo s.records = some i)
    (ht : FrontsOpened lo (s.openEpoch i (lo + s.openCount)) t) : FrontsOpened lo s t := by
  obtain ⟨hnone, hi⟩ := freeRecordNo_eq_some hfree
  have count := openCount_openEpoch hnone (lo + s.openCount)
  have length : (s.openEpoch i (lo + s.openCount)).records.length = s.records.length + 1 :=
    (openEpoch_records_perm hnone _).length_eq
  have room : s.records.length + 1 ≤ 16 := length ▸ (h.listed.put hi _).length_le
  have same : (s.openEpoch i (lo + s.openCount)).openCount + (16 - (s.openEpoch i (lo + s.openCount)).records.length) =
      s.openCount + (16 - s.records.length) := by omega
  refine ⟨?_, ht.window, same ▸ ht.count, same ▸ ht.short, fun j r hr => ht.kept j r ?_⟩
  · rw [ht.frame]
    rfl
  · have hne : j ≠ i := fun heq => by simp [heq, hnone] at hr
    exact (assocGet_put_other _ _ hne).trans hr

/-- Enough fuel opens the whole window. -/
theorem openFronts_opens {lo k : Nat} {s : State} (h : OpenFrom lo s) (hfuel : s.plan.windowDepth < s.openCount + k) :
    FrontsOpened lo s (openFronts lo k s) := by
  induction k generalizing s with
  | zero => exact absurd h.atMost (Nat.not_le.2 hfuel)
  | succ k ih =>
    unfold openFronts
    split
    · rename_i hroom
      split
      · rename_i i hfree
        have count := openCount_openEpoch (freeRecordNo_eq_some hfree).1 (lo + s.openCount)
        refine .of_openEpoch h hfree (ih (h.openEpoch hfree hroom) ?_)
        rw [count, State.openEpoch_plan]
        omega
      · rename_i hfull
        exact .of_full h hroom hfull
    · rename_i hwide
      exact .of_wide h (Nat.not_lt.1 hwide)

/-! ## E_lo at STORE-START (R94) -/

/-- E_first is the smallest epoch number whose close time lies above `nt` (R81). -/
theorem firstEpoch_le_iff {p : Plan} (h : 0 < p.epochNs) (nt n : Nat) : p.firstEpoch nt ≤ n ↔ nt < p.closeTime n := by
  have quotient : (nt - p.holdNs) / p.epochNs < n + 1 ↔ nt - p.holdNs < (n + 1) * p.epochNs := Nat.div_lt_iff_lt_mul h
  have hpos : 0 < (n + 1) * p.epochNs := Nat.mul_pos n.succ_pos h
  unfold Plan.firstEpoch Plan.closeTime
  split <;> omega

theorem foldl_max_number_le_iff (l : List (Nat × EpochRecord)) (m n : Nat) :
    l.foldl (fun m q => max m (q.2.number + 1)) m ≤ n ↔ m ≤ n ∧ ∀ q ∈ l, q.2.number < n := by
  induction l generalizing m with
  | nil => simp
  | cons q t ih =>
    simp only [List.foldl_cons, ih, List.forall_mem_cons, Nat.max_le, Nat.succ_le_iff, and_assoc]

/-- E_lo at STORE-START is the smallest number that lies above both of R94's bounds. -/
theorem startEpoch_le_iff {s : State} (h : s.plan.inRange) (n : Nat) :
    s.startEpoch ≤ n ↔ s.ref.ntNow < s.plan.closeTime n ∧ ∀ i r, (i, r) ∈ s.records → r.number < n := by
  have hlen : 0 < s.plan.epochNs := by
    obtain ⟨hl, -⟩ := (planInRange_iff _ _ _).1 h
    exact Nat.mul_pos (by omega) (by decide)
  rw [State.startEpoch, foldl_max_number_le_iff, firstEpoch_le_iff hlen, Prod.forall]

/-! ## STORE-START (R94) -/

theorem exec_storeStart_of_rule {s : State} {p : Progress} {e : Entry} {rest : List Entry} {r : DirResult}
    (h : Takes s p e rest 0x13 0) (hr : storeStartRule s e.params = r) :
    exec .storeStart s = .next (r.state.finishEntry p e rest r.outcome r.data) :=
  congrArg Host.Outcome.next (runDirective_of_rule h hr)

/-- In Idle the window opens from E_lo; W keeps within the fuel of the loop (R84, R94). -/
theorem storeStartRule_of_idle {s : State} (hidle : s.store = .idle) (hinv : StoreInv s) (ps : List Byte) :
    ∃ t, storeStartRule s ps = .done t ∧
      FrontsOpened s.startEpoch { s with store := .ready, eLo := some s.startEpoch } t := by
  have noWindow : s.eLo = none := by simpa [hidle] using hinv.present
  have noneOpen : s.openCount = 0 := hinv.noWindow noWindow
  have window := OpenFrom.of_noneOpen (s := { s with store := .ready, eLo := some s.startEpoch })
    ⟨hinv.sorted, hinv.sixteen⟩ noneOpen s.startEpoch
  have enough : s.plan.windowDepth < s.openCount + 17 := by
    obtain ⟨-, -, hdepth, -⟩ := (planInRange_iff _ _ _).1 hinv.plan
    omega
  exact ⟨_, if_neg (not_not_intro hidle), openFronts_opens window enough⟩

/-! ## STORE-SUSPEND and STORE-RESUME (R98, R99) -/

theorem exec_storeSuspend_of_rule {s : State} {p : Progress} {e : Entry} {rest : List Entry} {r : DirResult}
    (h : Takes s p e rest 0x15 0) (hr : storeSuspendRule s e.params = r) :
    exec .storeSuspend s = .next (r.state.finishEntry p e rest r.outcome r.data) :=
  congrArg Host.Outcome.next (runDirective_of_rule h hr)

theorem storeSuspendRule_of_running {s : State} (h : s.store = .ready ∨ s.store = .starved) (ps : List Byte) :
    storeSuspendRule s ps = .done s.suspend := by
  rcases h with h | h <;> simp only [storeSuspendRule, h]

theorem exec_storeResume_of_rule {s : State} {p : Progress} {e : Entry} {rest : List Entry} {r : DirResult}
    (h : Takes s p e rest 0x16 0) (hr : storeResumeRule s e.params = r) :
    exec .storeResume s = .next (r.state.finishEntry p e rest r.outcome r.data) :=
  congrArg Host.Outcome.next (runDirective_of_rule h hr)

theorem storeResumeRule_of_running {s : State} (h : s.store = .ready ∨ s.store = .starved) (ps : List Byte) :
    storeResumeRule s ps = .leave s .noEffect := by
  rcases h with h | h <;> simp only [storeResumeRule, h]

/-- A Suspended store returns to Starved exactly with the mark set and fewer than 1,024 pages free (R99). -/
theorem storeResumeRule_of_suspended {s : State} (h : s.store = .suspended) (ps : List Byte) :
    storeResumeRule s ps =
      if s.rememberedStarved = true ∧ s.freePages.length < 1024 then .done { s.enterStarved with rememberedStarved := false }
      else .done { s with store := .ready, rememberedStarved := false } := by
  have starves : (s.rememberedStarved && !atLeast Config.starvedEnd s.freePages) = true ↔
      s.rememberedStarved = true ∧ s.freePages.length < 1024 := by
    simp [← Bool.not_eq_true, Config.starvedEnd]
  simp only [storeResumeRule, h, starves]

/-! ## STORE-STOP (R88, R100) -/

theorem exec_storeStop_of_rule {s : State} {p : Progress} {e : Entry} {rest : List Entry} {r : DirResult}
    (h : Takes s p e rest 0x14 0) (hr : storeStopRule s e.params = r) :
    exec .storeStop s = .next (r.state.finishEntry p e rest r.outcome r.data) :=
  congrArg Host.Outcome.next (runDirective_of_rule h hr)

theorem dropRecord_of_present {s : State} {i : Nat} {r : EpochRecord} (hr : assocGet s.records i = some r) :
    s.dropRecord i = { s with records := assocErase s.records i, freePages := s.freePages ++ r.pageList } := by
  simp [State.dropRecord, hr, State.returnPages]

/-- Dropping the records of a list one after the other: their pages return in the list's order (R88). -/
theorem foldl_dropRecord (l : List (Nat × EpochRecord)) {s : State} (hl : ∀ q ∈ l, assocGet s.records q.1 = some q.2)
    (hd : (l.map (·.1)).Nodup) :
    ∃ records, l.foldl (fun s q => s.dropRecord q.1) s =
        { s with records := records, freePages := s.freePages ++ l.flatMap (fun q => q.2.pageList) } ∧
      (∀ q ∈ l, assocGet records q.1 = none) ∧ ∀ j, j ∉ l.map (·.1) → assocGet records j = assocGet s.records j := by
  induction l generalizing s with
  | nil => exact ⟨s.records, by simp, by simp, fun _ _ => rfl⟩
  | cons q t ih =>
    obtain ⟨hq, ht⟩ := List.nodup_cons.1 hd
    have other : ∀ x ∈ t, x.1 ≠ q.1 := fun x hx heq => hq (List.mem_map.2 ⟨x, hx, heq⟩)
    have first := dropRecord_of_present (hl q List.mem_cons_self)
    have later : ∀ x ∈ t, assocGet (s.dropRecord q.1).records x.1 = some x.2 := fun x hx => by
      rw [first, assocGet_erase, if_neg (other x hx)]
      exact hl x (List.mem_cons_of_mem _ hx)
    obtain ⟨records, hfold, hin, hout⟩ := ih later ht
    rw [first] at hfold hout
    refine ⟨records, ?_, fun x hx => ?_, fun j hj => ?_⟩
    · rw [List.foldl_cons, first, hfold]
      simp
    · rcases List.mem_cons.1 hx with rfl | hx
      · rw [hout _ hq, assocGet_erase, if_pos rfl]
      · exact hin x hx
    · rw [List.map_cons, List.mem_cons, not_or] at hj
      obtain ⟨hjq, hjt⟩ := hj
      rw [hout j hjt, assocGet_erase, if_neg hjq]

/-- All that freeing the Open records does, in increasing epoch number (R88, R100). -/
theorem dropOpenRecords_eq {s : State} (hs : assocSorted s.records = true) :
    ∃ records, s.dropRecords s.openRecords =
        { s with records := records, freePages := s.freePages ++ s.openRecords.flatMap (fun q => q.2.pageList) } ∧
      (∀ i r, assocGet s.records i = some r → r.state = .opened → assocGet records i = none) ∧
      (∀ i r, assocGet s.records i = some r → r.state ≠ .opened → assocGet records i = some r) ∧
      ∀ i, assocGet s.records i = none → assocGet records i = none := by
  have listed : ∀ q ∈ s.openRecords, assocGet s.records q.1 = some q.2 := fun q hq => ((mem_openRecords hs q.1 q.2).1 hq).1
  obtain ⟨records, hfold, hin, hout⟩ := foldl_dropRecord s.openRecords listed (openRecords_keys_nodup hs)
  have unlisted : ∀ i, (∀ r, assocGet s.records i = some r → r.state ≠ .opened) →
      assocGet records i = assocGet s.records i := fun i hi => hout i fun hmem => by
    obtain ⟨⟨j, r⟩, hq, rfl⟩ := List.mem_map.1 hmem
    obtain ⟨hr, ho⟩ := (mem_openRecords hs j r).1 hq
    exact hi r hr ho
  refine ⟨records, ?_, fun i r hr ho => ?_, fun i r hr hne => ?_, fun i hi => ?_⟩
  · rw [State.dropRecords, byEpoch_openRecords, hfold]
  · exact hin (i, r) ((mem_openRecords hs i r).2 ⟨hr, ho⟩)
  · exact (unlisted i fun r' hr' => Option.some.inj (hr.symm.trans hr') ▸ hne).trans hr
  · exact (unlisted i fun r hr => by simp [hi] at hr).trans hi

/-- Settles O48: STORE-START opens the window from E_lo, front by front; each of the others is one branch of its rule by the store
state. -/
theorem storeDirectives : Obligations.StoreDirectives := by
  refine ⟨fun s p e rest h => ⟨fun hrun => ?running, fun hidle hinv => ?idle⟩,
    fun s p e rest => ⟨fun h => ?suspend, fun h => ?resume, fun h => ?stop⟩⟩
  case running => exact exec_storeStart_of_rule h (if_pos hrun)
  case idle =>
    obtain ⟨t, hrule, opened⟩ := storeStartRule_of_idle hidle hinv e.params
    have above_iff := startEpoch_le_iff hinv.plan
    have noneOpen : s.openCount = 0 := hinv.noWindow (by simpa [hidle] using hinv.present)
    have room : s.openCount + (16 - s.records.length) = 16 - s.records.length := by rw [noneOpen, Nat.zero_add]
    refine ⟨t, s.startEpoch, exec_storeStart_of_rule h hrule, (above_iff _).1 le_rfl, fun n hn => (above_iff n).2 hn, ?_, ?_,
      opened.window.numbers, opened.count.trans (congrArg _ room), room ▸ opened.short, opened.kept, ?_⟩
    all_goals rw [opened.frame]
  case suspend =>
    refine ⟨fun hs => ?_, fun hs => ?_, fun hs => ?_⟩
    · exact exec_storeSuspend_of_rule h (storeSuspendRule_of_running hs _)
    · exact exec_storeSuspend_of_rule h (r := .leave s .noEffect) (by simp only [storeSuspendRule, hs])
    · exact exec_storeSuspend_of_rule h (r := .leave s .refusedState) (by simp only [storeSuspendRule, hs])
  case resume =>
    refine ⟨fun hs hready => ?_, fun hs hmark hfew => ?_, fun hs => ?_, fun hs => ?_⟩
    · have recovers : ¬ (s.rememberedStarved = true ∧ s.freePages.length < 1024) := by
        rw [not_and_or, Bool.not_eq_true, Nat.not_lt]
        exact hready
      exact exec_storeResume_of_rule h ((storeResumeRule_of_suspended hs _).trans (if_neg recovers))
    · exact exec_storeResume_of_rule h ((storeResumeRule_of_suspended hs _).trans (if_pos ⟨hmark, hfew⟩))
    · exact exec_storeResume_of_rule h (storeResumeRule_of_running hs _)
    · exact exec_storeResume_of_rule h (r := .leave s .refusedState) (by simp only [storeResumeRule, hs])
  case stop =>
    refine ⟨fun hs => exec_storeStop_of_rule h (if_pos hs), fun hs hsorted => ?_⟩
    obtain ⟨records, hdrop, hopen, hother, hfree⟩ := dropOpenRecords_eq hsorted
    have hrule : storeStopRule s e.params = .done (s.dropRecords s.openRecords).becomeIdle.retireAll := if_neg hs
    rw [hdrop] at hrule
    exact ⟨_, exec_storeStop_of_rule h hrule, hopen, hother, hfree, assocGet_map retirePrevious s.stations, rfl⟩

end Sys2Proof.Machine
end

section
/-! An arrival at a trunk port: the four frame checks as conditions on the bytes (R72, R104), and the outcome of each branch of the
handling (R104, R105). -/

namespace Sys2Proof.Machine

/-! ## The frame checks (R72, R104) -/

/-- The empty run has no type and reads 0 in the field at offset 0, so the two agree on every code but 0 (R180). -/
theorem typeOf_eq_some_iff {n : Nat} (hn : n ≠ 0) (bs : List Byte) : typeOf bs = some n ↔ fieldAt bs 0 1 = n := by
  cases bs with
  | nil => simpa [typeOf, fieldAt, beNat] using hn.symm
  | cons b rest => simp [typeOf, fieldAt, beNat]

/-- The check field is the last two bytes of the arrival, and nothing stands after it (R72). -/
theorem checkPasses_iff (bs : List Byte) :
    checkPasses bs = true ↔ onesAdd (checkSum 0 (bs.take (bs.length - 2))) (fieldAt bs (bs.length - 2) 2) = 0xFFFF := by
  have last_two : (bs.drop (bs.length - 2)).take 2 = bs.drop (bs.length - 2) :=
    List.take_of_length_le (by rw [List.length_drop]; omega)
  rw [checkPasses, decide_eq_true_iff, fieldAt, last_two]

theorem trunkShapeOk_iff (bs : List Byte) : trunkShapeOk bs = true ↔
    20 ≤ bs.length ∧ bs.length ≤ 274 ∧ fieldAt bs 0 1 = 0x51 ∧ fieldAt bs 1 2 = bs.length - 18 := by
  simp only [trunkShapeOk, Bool.and_eq_true, decide_eq_true_iff, and_assoc]
  rw [typeOf_eq_some_iff (by decide), lengthField]

/-- The rows of R104 that raise the length-error counter. -/
theorem trunkShapeOk_eq_false_iff (bs : List Byte) : trunkShapeOk bs = false ↔
    bs.length < 20 ∨ 274 < bs.length ∨ fieldAt bs 0 1 ≠ 0x51 ∨ fieldAt bs 1 2 ≠ bs.length - 18 := by
  rw [← Bool.not_eq_true, trunkShapeOk_iff, not_and_or, not_and_or, not_and_or, Nat.not_le, Nat.not_le]

/-! ## The handling of an arrival (R104, R105) -/

theorem arrival_of_badShape {bs : List Byte} (h : trunkShapeOk bs = false) (t : TrunkPort) :
    t.arrival bs = { t with lengthErrors := bump t.lengthErrors } := by
  simp [TrunkPort.arrival, h]

theorem arrival_of_badCheck {bs : List Byte} (hshape : trunkShapeOk bs = true) (h : checkPasses bs = false) (t : TrunkPort) :
    t.arrival bs = { t with checkErrors := bump t.checkErrors } := by
  simp [TrunkPort.arrival, hshape, h]

theorem arrival_of_room {bs : List Byte} {t : TrunkPort} (hshape : trunkShapeOk bs = true) (hcheck : checkPasses bs = true)
    (h : t.fifo.length < 32) : t.arrival bs =
      { t with goodPackets := bump t.goodPackets, link := .up, timer := some 0, fifo := t.fifo ++ [bs] } := by
  simp [TrunkPort.arrival, hshape, hcheck, Config.fifoDepth, h]

theorem arrival_of_full {bs : List Byte} {t : TrunkPort} (hshape : trunkShapeOk bs = true) (hcheck : checkPasses bs = true)
    (h : ¬ t.fifo.length < 32) : t.arrival bs =
      { t with goodPackets := bump t.goodPackets, link := .up, timer := some 0, overflows := bump t.overflows } := by
  simp [TrunkPort.arrival, hshape, hcheck, Config.fifoDepth, h]

theorem exec_packetArrival (p : Port) (bs : List Byte) (s : State) :
    exec (.packetArrival p bs) s = .next (s.setTrunk p ((s.trunk p).arrival bs)) := rfl

/-- Settles O4: each branch of the chain of checks is one outcome of the arrival. -/
theorem packetArrivalFrameChecks : Obligations.PacketArrivalFrameChecks := by
  intro p bs s
  rw [exec_packetArrival]
  congr 2
  split_ifs with badShape badCheck room
  · exact arrival_of_badShape ((trunkShapeOk_eq_false_iff bs).2 badShape) _
  all_goals have shape : trunkShapeOk bs = true := by rwa [← Bool.not_eq_false, trunkShapeOk_eq_false_iff]
  · exact arrival_of_badCheck shape (Bool.eq_false_iff.2 (mt (checkPasses_iff bs).1 badCheck)) _
  all_goals have check : checkPasses bs = true := (checkPasses_iff bs).2 (not_not.1 badCheck)
  · exact arrival_of_room shape check room
  · exact arrival_of_full shape check room

end Sys2Proof.Machine
end

section
/-! The received map after an accepted packet (R120, R121): the two rows of the filter that accept against a present window, and what
each of them makes of the marks. -/

namespace Sys2Proof.Machine

/-! ## The two accepting rows (rows 3 and 5 of R120) -/

/-- The distance ahead of the high number, as the filter's word difference (R119). -/
theorem toNat_sub_high (w : SeqWindow) (q : BitVec 16) :
    (q - w.high).toNat = (q.toNat + 65536 - w.high.toNat) % 65536 := by
  have high_lt := w.high.isLt
  rw [BitVec.toNat_sub]
  omega

theorem judge_of_newer {w : SeqWindow} {q : BitVec 16} (hpos : 1 ≤ (q - w.high).toNat) (hnewer : (q - w.high).toNat ≤ 32767) :
    judge false (some w) q =
      (.accepted, { high := q, marks := (w.marks >>> (q - w.high).toNat) ||| 0x80000000, staleRun := 0 }) := by
  have hne : (q - w.high).toNat ≠ 0 := Nat.one_le_iff_ne_zero.1 hpos
  simp only [judge, judgePresent, hne, hnewer, Bool.false_eq_true, if_true, if_false]

theorem judge_of_older {w : SeqWindow} {q : BitVec 16} (holder : 65505 ≤ (q - w.high).toNat)
    (hclear : w.marks.getLsbD (31 - (65536 - (q - w.high).toNat)) = false) :
    judge false (some w) q =
      (.accepted, { w with
        marks := w.marks ||| BitVec.twoPow 32 (31 - (65536 - (q - w.high).toNat)), staleRun := 0 }) := by
  have hne : (q - w.high).toNat ≠ 0 := by omega
  have hfar : ¬ (q - w.high).toNat ≤ 32767 := by omega
  have hinside : 65536 - (q - w.high).toNat ≤ 31 := by omega
  simp only [judge, judgePresent, hne, hfar, hinside, hclear, Bool.false_eq_true, if_true, if_false]

/-! ## The marks (R121, R183) -/

/-- Setting one mark leaves the others: the number `high - j` of the window is at bit 31 - j. -/
theorem getLsbD_or_mark {marks : BitVec 32} {i j : Nat} (hi : i < 32) (hj : j < 32) :
    (marks ||| BitVec.twoPow 32 (31 - j)).getLsbD (31 - i) = true ↔ i = j ∨ marks.getLsbD (31 - i) = true := by
  have same_bit : 31 - j = 31 - i ↔ i = j := by omega
  have in_word : 31 - j < 32 := by omega
  simp only [BitVec.getLsbD_or, BitVec.getLsbD_twoPow, in_word, same_bit, Bool.or_eq_true, Bool.and_eq_true, decide_eq_true_eq,
    true_and]
  exact or_comm

/-- The marks move down `d` places, and the `d` numbers from the new high number down lay above the old range. -/
theorem getLsbD_shiftedMarks (marks : BitVec 32) (d : Nat) {i : Nat} (hi : i < 32) :
    (marks >>> d).getLsbD (31 - i) = true ↔ d ≤ i ∧ marks.getLsbD (31 - (i - d)) = true := by
  rw [BitVec.getLsbD_ushiftRight]
  by_cases hd : d ≤ i
  · have old_bit : d + (31 - i) = 31 - (i - d) := by omega
    simp only [old_bit, hd, true_and]
  · have past_word : 32 ≤ d + (31 - i) := by omega
    simp only [BitVec.getLsbD_of_ge _ _ past_word, hd, false_and, Bool.false_eq_true]

/-- Settles O11: newer acceptance shifts the map and marks `q`; older acceptance adds one mark to it. -/
theorem receivedMapMovesForward : Obligations.ReceivedMapMovesForward := by
  intro w q
  simp only [← toNat_sub_high]
  refine ⟨fun hpos hnewer => ?newer, fun holder hclear => ?older⟩
  case newer =>
    rw [judge_of_newer hpos hnewer]
    refine ⟨rfl, rfl, fun i hi => ?_⟩
    have new_mark : (0x80000000 : BitVec 32) = BitVec.twoPow 32 (31 - 0) := by decide
    rw [new_mark, getLsbD_or_mark hi (by decide), getLsbD_shiftedMarks _ _ hi]
  case older =>
    rw [judge_of_older holder hclear]
    exact ⟨rfl, rfl, fun i hi => getLsbD_or_mark hi (by omega)⟩

end Sys2Proof.Machine
end

section
/-! The chain port: the type table and the outcome of each check of an arrival (R156 to R158), and the ways its link goes Down
(R155). -/

namespace Sys2Proof.Machine

/-! ## The type table (R156, R180) -/

theorem frameShape_eq_none {kind : Nat} (h52 : kind ≠ 0x52) (h54 : kind ≠ 0x54) (h55 : kind ≠ 0x55) : frameShape kind = none := by
  unfold frameShape
  split
  · exact absurd rfl h52
  · exact absurd rfl h54
  · exact absurd rfl h55
  · rfl

/-- The rows of the type table as header size, least length and greatest length, each chosen by the type. -/
theorem frameShape_of_carried {kind : Nat} (h : kind = 0x52 ∨ kind = 0x54 ∨ kind = 0x55) :
    frameShape kind = some
      (if kind = 0x52 then 32 else if kind = 0x54 then 10 else 4,
       if kind = 0x52 then 34 else if kind = 0x54 then 12 else 14,
       if kind = 0x52 then 16418 else if kind = 0x54 then 4096 else 14) := by
  obtain rfl | rfl | rfl := h <;> rfl

/-- The type byte is looked up in the table; an arrival too short to hold one has no row, like the type 0 it reads as. -/
theorem typeOf_bind_frameShape (bs : List Byte) : (typeOf bs).bind frameShape = frameShape (fieldAt bs 0 1) := by
  by_cases h0 : fieldAt bs 0 1 = 0
  · cases bs with
    | nil => rfl
    | cons b rest => simp [typeOf, fieldAt, beNat]
  · rw [(typeOf_eq_some_iff h0 bs).2 rfl, Option.bind_some]

/-! ## The handling of an arrival (R156 to R158) -/

theorem chainArrival_of_noShape {bs : List Byte} (h : frameShape (fieldAt bs 0 1) = none) (c : ChainPort) :
    c.arrival bs = { c with typeErrors := bump c.typeErrors } := by
  simp only [ChainPort.arrival, typeOf_bind_frameShape, h]

/-- The size and length checks raise the same counter. -/
theorem chainArrival_of_badLength {bs : List Byte} {header lo hi : Nat}
    (hshape : frameShape (fieldAt bs 0 1) = some (header, lo, hi))
    (h : bs.length < lo ∨ hi < bs.length ∨ fieldAt bs 1 2 ≠ bs.length - (header + 2)) (c : ChainPort) :
    c.arrival bs = { c with lengthErrors := bump c.lengthErrors } := by
  simp only [ChainPort.arrival, typeOf_bind_frameShape, hshape]
  by_cases size : bs.length < lo ∨ hi < bs.length
  · rw [if_pos size]
  · have field : lengthField bs ≠ bs.length - (header + 2) := (or_assoc.2 h).resolve_left size
    rw [if_neg size, if_pos field]

/-- Past the size and length checks only the check field is left. -/
theorem chainArrival_of_goodLength {bs : List Byte} {header lo hi : Nat}
    (hshape : frameShape (fieldAt bs 0 1) = some (header, lo, hi))
    (h : ¬ (bs.length < lo ∨ hi < bs.length ∨ fieldAt bs 1 2 ≠ bs.length - (header + 2))) (c : ChainPort) :
    c.arrival bs =
      if onesAdd (checkSum 0 (bs.take (bs.length - 2))) (fieldAt bs (bs.length - 2) 2) ≠ 0xFFFF then
        { c with checkErrors := bump c.checkErrors }
      else c.goodFrame bs := by
  obtain ⟨size, field⟩ := not_or.1 (mt or_assoc.1 h)
  have length_agrees : ¬ lengthField bs ≠ bs.length - (header + 2) := field
  have check_fails : (!checkPasses bs) = true ↔
      onesAdd (checkSum 0 (bs.take (bs.length - 2))) (fieldAt bs (bs.length - 2) 2) ≠ 0xFFFF := by
    rw [Bool.not_eq_true', ← Bool.not_eq_true, checkPasses_iff]
  simp only [ChainPort.arrival, typeOf_bind_frameShape, hshape]
  rw [if_neg size, if_neg length_agrees, if_congr check_fails rfl rfl]

/-- A good frame joins a buffer with room, the eighth with the outward hold; a full buffer overflows. -/
theorem goodFrame_eq (c : ChainPort) (bs : List Byte) : c.goodFrame bs =
    if c.buffer.length < 8 then
      { c with
        goodFrames := bump c.goodFrames, link := .up, timer := some 0, buffer := c.buffer ++ [bs]
        outwardHold := if c.buffer.length + 1 = 8 then true else c.outwardHold }
    else
      { c with goodFrames := bump c.goodFrames, link := .up, timer := some 0, overflows := bump c.overflows } := rfl

theorem exec_frameArrival (bs : List Byte) (s : State) :
    exec (.frameArrival bs) s = .next { s with chain := s.chain.arrival bs } := rfl

/-! ## The loss of the chain link (R155) -/

theorem goDown_of_up {c : ChainPort} (h : c.link = .up) : c.goDown = { c with link := .down, timer := none } := if_pos h

theorem goDown_of_down {c : ChainPort} (h : c.link = .down) : c.goDown = c := if_neg (by rw [h]; decide)

theorem exec_chainLossOfSignal (s : State) :
    exec .chainLossOfSignal s = .next { s with chain := s.chain.goDown } := rfl

theorem exec_chainLinkLossTimerExpiry (s : State) :
    exec .chainLinkLossTimerExpiry s = .next s.chainLinkExpiry := rfl

/-- A timer that has run one link-loss time takes the link Down, as the loss of signal does. -/
theorem chainLinkExpiry_of_due {s : State} {e : Nat} (he : s.chain.timer = some e) (hdue : s.linkLossTime * 1000000 ≤ e) :
    s.chainLinkExpiry = { s with chain := s.chain.goDown } :=
  if_pos (by rw [he]; exact decide_eq_true hdue)

/-- Settles O33: each check of an arrival is one branch of its handling, and both losses of the link are `goDown`. -/
theorem chainPortArrivalsAndLoss : Obligations.ChainPortArrivalsAndLoss := by
  refine ⟨fun bs s => ?arrival, fun s => ⟨fun up => ?signalUp, fun down => ?signalDown, fun up e he hdue => ?expiry⟩⟩
  case arrival =>
    intro c kind header least most
    rw [exec_frameArrival]
    congr 2
    split
    next uncarried =>
      obtain ⟨h52, h54, h55⟩ := uncarried
      exact chainArrival_of_noShape (frameShape_eq_none h52 h54 h55) c
    next carried =>
      have shape : frameShape kind = some (header, least, most) := frameShape_of_carried (by tauto)
      split
      next badLength => exact chainArrival_of_badLength shape badLength c
      next goodLength => rw [chainArrival_of_goodLength shape goodLength, goodFrame_eq]
  case signalUp => rw [exec_chainLossOfSignal, goDown_of_up up]
  case signalDown => rw [exec_chainLossOfSignal, goDown_of_down down]
  case expiry => rw [exec_chainLinkLossTimerExpiry, chainLinkExpiry_of_due he hdue, goDown_of_up up]

end Sys2Proof.Machine
end

section
/-! The twelve flags at their positions (R172, R181), what raising one does to the notice slot (R175), and the directives that
clear flags and set the notice mask (R173, R174). -/

namespace Sys2Proof.Machine

/-! ## Directives that never wait -/

/-- A command that runs a directive without waiting does what the directive's own rule answers (R163). -/
theorem exec_of_rule {i : Instr} {s : State} {p : Progress} {e : Entry} {rest : List Entry} {code len : Nat}
    {body : State → List Byte → DirResult} {r : DirResult} (hi : exec i s = .next (runDirective code len noWait body s))
    (h : Takes s p e rest code len) (hr : body s e.params = r) :
    exec i s = .next (r.state.finishEntry p e rest r.outcome r.data) :=
  hi.trans (congrArg Host.Outcome.next (runDirective_of_rule h hr))

theorem exec_clearFlags (s : State) : exec .clearFlags s = .next (runDirective 0x11 2 noWait clearFlagsRule s) := rfl

theorem exec_setNoticeMask (s : State) :
    exec .setNoticeMask s = .next (runDirective 0x12 2 noWait setNoticeMaskRule s) := rfl

/-! ## The positions of the flags (R181) -/

/-- The twelve flags in the order of their codes. -/
def flagOrder : List EventFlag :=
  [.refChange, .refFailed, .storeStarved, .storeWithheld, .pagesLow, .windowShort, .trunkADown, .trunkBDown, .stationSilent,
    .emitDrop, .skippedEpochs, .mgmtDrop]

theorem bit_of_mem_flagOrder : ∀ x ∈ flagOrder.zipIdx, x.2 < 12 ∧ x.1.bit = BitVec.twoPow 12 x.2 := by decide

/-- A flag set read from two bytes holds their low twelve bits; the reserved positions are ignored (R181). -/
theorem getLsbD_readFlagSet (ps : List Byte) {k : Nat} (hk : k < 12) :
    (readFlagSet ps).getLsbD k = (fieldAt ps 0 2).testBit k := by
  rw [readFlagSet, BitVec.getLsbD_ofNat, decide_eq_true hk, Bool.true_and]

theorem getLsbD_and_not_readFlagSet (fs : FlagSet) (ps : List Byte) {k : Nat} (hk : k < 12) :
    (fs &&& ~~~readFlagSet ps).getLsbD k = (fs.getLsbD k && !(fieldAt ps 0 2).testBit k) := by
  rw [BitVec.getLsbD_and, BitVec.getLsbD_not, getLsbD_readFlagSet ps hk, decide_eq_true hk, Bool.true_and]

/-! ## Raising a clear flag (R172, R175) -/

theorem raise_of_clear {s : State} {f : EventFlag} (h : hasFlag s.flags f = false) :
    s.raise f =
      { s with
        flags := s.flags ||| f.bit
        noticeSlot := if hasFlag s.noticeMask f then some (s.noticeSlot.getD 0 ||| f.bit) else s.noticeSlot } :=
  if_neg (by rw [h]; decide)

theorem raise_of_clear_unmasked {s : State} {f : EventFlag} (h : hasFlag s.flags f = false)
    (hmask : hasFlag s.noticeMask f = false) : s.raise f = { s with flags := s.flags ||| f.bit } := by
  rw [raise_of_clear h, if_neg (by rw [hmask]; decide)]

/-- With no notice pending, a masked flag's notice has that flag alone as its cause. -/
theorem raise_of_clear_places {s : State} {f : EventFlag} (h : hasFlag s.flags f = false)
    (hmask : hasFlag s.noticeMask f = true) (hslot : s.noticeSlot = none) :
    s.raise f = { s with flags := s.flags ||| f.bit, noticeSlot := some f.bit } := by
  rw [raise_of_clear h, if_pos hmask, hslot, Option.getD_none, BitVec.ofNat_eq_ofNat, BitVec.zero_or]

theorem raise_of_clear_joins {s : State} {f : EventFlag} {cause : FlagSet} (h : hasFlag s.flags f = false)
    (hmask : hasFlag s.noticeMask f = true) (hslot : s.noticeSlot = some cause) :
    s.raise f = { s with flags := s.flags ||| f.bit, noticeSlot := some (cause ||| f.bit) } := by
  rw [raise_of_clear h, if_pos hmask, hslot, Option.getD_some]

/-- Settles O23: each flag is one bit, a raise is one branch by flag, mask and slot, and both directives are bitwise. -/
theorem flagsAndNotices : Obligations.FlagsAndNotices := by
  refine ⟨fun fs x hx => ?positions, ⟨fun _ _ => rfl, fun s f => ?raise⟩, fun s p e rest => ⟨fun h => ?clear, fun h => ?mask⟩⟩
  case positions =>
    obtain ⟨inRange, bit_eq⟩ := bit_of_mem_flagOrder x hx
    exact ⟨bit_eq, hasFlag_eq_getLsbD fs inRange bit_eq⟩
  case raise =>
    exact ⟨raise_of_set, raise_of_clear_unmasked, raise_of_clear_places, fun h hmask _ => raise_of_clear_joins h hmask⟩
  case clear =>
    refine ⟨s.flags &&& ~~~readFlagSet e.params, fun k hk => ?_, exec_of_rule (exec_clearFlags s) h rfl⟩
    rw [getLsbD_and_not_readFlagSet _ _ hk, Bool.and_eq_true, Bool.not_eq_true']
  case mask =>
    refine ⟨readFlagSet e.params, fun k hk => ?_, exec_of_rule (exec_setNoticeMask s) h rfl⟩
    rw [getLsbD_readFlagSet _ hk]

end Sys2Proof.Machine
end

section
/-! The directives that read: the report of each, and READ-COUNTERS scope by scope with its clear (R167 to R171). -/

namespace Sys2Proof.Machine

/-! ## IDENTIFY, READ-STORE and READ-FLAGS (R167, R170, R171) -/

theorem exec_identify (s : State) : exec .identify s = .next (runDirective 0x01 0 noWait identifyRule s) := rfl

theorem exec_readStore (s : State) : exec .readStore s = .next (runDirective 0x0F 0 noWait readStoreRule s) := rfl

theorem exec_readFlags (s : State) : exec .readFlags s = .next (runDirective 0x10 0 noWait readFlagsRule s) := rfl

/-- The part code, the revision and the sizes of the configuration, as the bytes they are reported by (R167). -/
theorem identifyRule_eq (s : State) (ps : List Byte) :
    identifyRule s ps = .done s ([0x1C, 0x96, 0x01] ++ beBytes 1 s.unitAddress.toNat ++ [0xC0, 0x04, 0x10, 0x40, 0x00]) := rfl

/-- The notice slot is reported by one flag and its cause set, zero with no notice pending (R171). -/
theorem readFlagsRule_eq (s : State) (ps : List Byte) :
    readFlagsRule s ps = .done s
      (beBytes 2 s.flags.toNat ++ beBytes 2 s.noticeMask.toNat
        ++ (match s.noticeSlot with
          | some cause => [1] ++ beBytes 2 cause.toNat
          | none => [0, 0, 0])
        ++ beBytes 1 s.ref.state.toCode ++ beBytes 1 s.store.toCode) := by
  unfold readFlagsRule
  cases s.noticeSlot with
  | none => simp only [List.append_assoc]; rfl
  | some cause => simp only [List.append_assoc]; rfl

/-! ## READ-STATION (R168) -/

theorem exec_readStation (s : State) : exec .readStation s = .next (runDirective 0x0D 1 noWait readStationRule s) := rfl

theorem readStationRule_of_outOfRange (s : State) {ps : List Byte} (h : 191 < fieldAt ps 0 1) :
    readStationRule s ps = .leave s .refusedRange := if_pos h

theorem readStationRule_of_vacant {s : State} {ps : List Byte} (h : fieldAt ps 0 1 ≤ 191)
    (hst : s.station (fieldAt ps 0 1) = none) :
    readStationRule s ps = .done s (beBytes 1 (fieldAt ps 0 1) ++ [0]) := by
  simp only [readStationRule, hst]
  exact if_neg (Nat.not_lt.2 h)

theorem readStationRule_of_mapped {s : State} {ps : List Byte} {st : Station} (h : fieldAt ps 0 1 ≤ 191)
    (hst : s.station (fieldAt ps 0 1) = some st) :
    readStationRule s ps = .done s (beBytes 1 (fieldAt ps 0 1) ++ stationReport st) := by
  simp only [readStationRule, hst]
  exact if_neg (Nat.not_lt.2 h)

/-! ## READ-COUNTERS (R169) -/

theorem exec_readCounters (s : State) : exec .readCounters s = .next (runDirective 0x0E 3 noWait readCountersRule s) := rfl

theorem readScope_of_lt {code : Nat} (h : 4 < code) : readScope code = none := by
  match code, h with
  | _ + 5, _ => rfl

theorem readScope_port (port : Port) : readScope (if port = .a then 0 else 1) = some (.port port) := by
  cases port <;> rfl

theorem readCountersRule_of_noScope (s : State) {ps : List Byte} (h : readScope (fieldAt ps 0 1) = none) :
    readCountersRule s ps = .leave s .refusedRange := by
  simp only [readCountersRule, h]

theorem readCountersRule_of_port (s : State) {ps : List Byte} {port : Port}
    (h : readScope (fieldAt ps 0 1) = some (.port port)) :
    readCountersRule s ps =
      .done (if (fieldAt ps 2 1).testBit 0 then s.setTrunk port (s.trunk port).clearCounters else s)
        (beBytes 1 (fieldAt ps 0 1) ++ counterBytes (s.trunk port).counterList ++ beBytes 1 (s.trunk port).link.toCode) := by
  simp only [readCountersRule, h]

theorem readCountersRule_of_chain (s : State) {ps : List Byte} (h : readScope (fieldAt ps 0 1) = some .chain) :
    readCountersRule s ps =
      .done (if (fieldAt ps 2 1).testBit 0 then { s with chain := s.chain.clearCounters } else s)
        (beBytes 1 (fieldAt ps 0 1) ++ counterBytes s.chain.counterList ++ beBytes 1 s.chain.link.toCode
          ++ beBytes 1 s.chain.buffer.length ++ flagByte s.chain.outwardHold) := by
  simp only [readCountersRule, h]

theorem readCountersRule_of_global (s : State) {ps : List Byte} (h : readScope (fieldAt ps 0 1) = some .global) :
    readCountersRule s ps =
      .done (if (fieldAt ps 2 1).testBit 0 then { s with globals := GlobalCounters.reset } else s)
        (beBytes 1 (fieldAt ps 0 1) ++ counterBytes s.globals.counterList) := by
  simp only [readCountersRule, h]

theorem readCountersRule_of_outOfRange (s : State) {ps : List Byte} (h : readScope (fieldAt ps 0 1) = some .station)
    (hslot : 191 < fieldAt ps 1 1) : readCountersRule s ps = .leave s .refusedRange := by
  simp only [readCountersRule, h]
  exact if_pos hslot

theorem readCountersRule_of_vacant {s : State} {ps : List Byte} (h : readScope (fieldAt ps 0 1) = some .station)
    (hslot : fieldAt ps 1 1 ≤ 191) (hst : s.station (fieldAt ps 1 1) = none) :
    readCountersRule s ps = .leave s .refusedTarget := by
  simp only [readCountersRule, h, hst]
  exact if_neg (Nat.not_lt.2 hslot)

theorem readCountersRule_of_mapped {s : State} {ps : List Byte} {st : Station}
    (h : readScope (fieldAt ps 0 1) = some .station) (hslot : fieldAt ps 1 1 ≤ 191)
    (hst : s.station (fieldAt ps 1 1) = some st) :
    readCountersRule s ps =
      .done (if (fieldAt ps 2 1).testBit 0 then s.putStation (fieldAt ps 1 1) st.clearCounters else s)
        (beBytes 1 (fieldAt ps 0 1) ++ counterBytes st.counterList) := by
  simp only [readCountersRule, h, hst]
  exact if_neg (Nat.not_lt.2 hslot)

theorem counterList_clearCounters (st : Station) : ∀ c ∈ st.clearCounters.counterList, c = 0 := by
  simp [Station.clearCounters, Station.counterList, StationCounters.counterList, StationCounters.zero, Quad.mapAll, Quad.toList]

theorem get_mapAll {α β : Type} (f : α → β) (q : Quad α) (c : Fin 4) : (q.mapAll f).get c = f (q.get c) := by
  match c with
  | 0 | 1 | 2 | 3 => rfl

/-- Settles O39: each clause is the case of one directive's rule that its conditions select. -/
theorem readingDirectives : Obligations.ReadingDirectives := by
  refine fun s p e rest => ⟨fun h => ?identify, fun h => ?readStore, fun h => ?readFlags, fun h => ?readStation,
    fun h => ?readCounters⟩
  case identify => exact exec_of_rule (exec_identify s) h (identifyRule_eq s e.params)
  case readStore => exact exec_of_rule (exec_readStore s) h rfl
  case readFlags => exact exec_of_rule (exec_readFlags s) h (readFlagsRule_eq s e.params)
  case readStation =>
    have answers := fun {r : DirResult} => exec_of_rule (r := r) (exec_readStation s) h
    exact ⟨fun hout => answers (readStationRule_of_outOfRange s hout),
      fun hin hst => answers (readStationRule_of_vacant hin hst),
      fun hin st hst => answers (readStationRule_of_mapped hin hst)⟩
  case readCounters =>
    have answers := fun {r : DirResult} => exec_of_rule (r := r) (exec_readCounters s) h
    intro scope slot clear four
    have named : ∀ {n : Nat}, scope = n → readScope scope = readScope n := congrArg readScope
    refine ⟨fun hout => ?noScope, fun port hport => ?port, fun hchain => ?chain, fun hstation hout => ?outOfRange,
      fun hstation hin hst => ?vacant, fun hstation hin st hst => ?mapped, fun hglobal => ?global⟩
    case noScope => exact answers (readCountersRule_of_noScope s (readScope_of_lt hout))
    case port => exact answers (readCountersRule_of_port s ((named hport).trans (readScope_port port)))
    case chain => exact answers (readCountersRule_of_chain s (named hchain))
    case outOfRange => exact answers (readCountersRule_of_outOfRange s (named hstation) hout)
    case vacant => exact answers (readCountersRule_of_vacant (named hstation) hin hst)
    case mapped =>
      exact ⟨st.clearCounters, rfl, counterList_clearCounters st, get_mapAll _ _,
        answers (readCountersRule_of_mapped (named hstation) hin hst)⟩
    case global => exact answers (readCountersRule_of_global s (named hglobal))

end Sys2Proof.Machine
end

section
/-! Runs of bytes (R180): the number a run spells, the bytes of a number, and the field at an offset of a run that is built of parts. -/

namespace Sys2Proof.Machine

/-! ## Numbers and bytes -/

@[simp] theorem beNat_nil : beNat [] = 0 := rfl

theorem beNat_append (a b : List Byte) : beNat (a ++ b) = beNat a * 256 ^ b.length + beNat b := by
  induction b using List.reverseRecOn with
  | nil => simp
  | append_singleton l x ih =>
    have last (c : List Byte) : beNat (c ++ [x]) = beNat c * 256 + x.toNat := by simp [beNat]
    rw [← List.append_assoc, last, last, ih, List.length_append, List.length_singleton, Nat.pow_succ]
    ring

theorem beNat_cons (x : Byte) (bs : List Byte) : beNat (x :: bs) = x.toNat * 256 ^ bs.length + beNat bs := by
  have single : beNat [x] = x.toNat := by simp [beNat]
  rw [← single]
  exact beNat_append [x] bs

theorem beNat_lt (bs : List Byte) : beNat bs < 256 ^ bs.length := by
  induction bs with
  | nil => simp
  | cons x bs ih =>
    have hx := x.isLt
    have top : x.toNat * 256 ^ bs.length ≤ 255 * 256 ^ bs.length := Nat.mul_le_mul_right _ (by omega)
    rw [beNat_cons, List.length_cons, Nat.pow_succ]
    omega

theorem beNat_beBytes (k v : Nat) : beNat (beBytes k v) = v % 256 ^ k := by
  induction k with
  | zero => simp [beBytes, Nat.mod_one]
  | succ k ih =>
    rw [beBytes, beNat_cons, length_beBytes, ih, BitVec.toNat_ofNat, pow_succ 256 k, Nat.mod_mul]
    ring

theorem beNat_beBytes_of_lt {k v : Nat} (h : v < 256 ^ k) : beNat (beBytes k v) = v := by
  rw [beNat_beBytes, Nat.mod_eq_of_lt h]

@[simp] theorem beNat_flagByte (b : Bool) : beNat (flagByte b) = if b then 1 else 0 := by cases b <;> rfl

@[simp] theorem beNat_zeroBytes (k : Nat) : beNat (zeroBytes k) = 0 := by
  induction k with
  | zero => rfl
  | succ k ih => simpa [zeroBytes, List.replicate_succ, beNat_cons] using ih

/-- A signed number reads back from its bytes (R180). -/
theorem signedOf_beInt {k : Nat} {v : Int} (hk : 0 < k) (hlo : -(2 ^ (8 * k - 1) : Nat) ≤ v) (hhi : v < (2 ^ (8 * k - 1) : Nat)) :
    signedOf (8 * k) (beNat (beInt k v)) = v := by
  have width : (256 : Nat) ^ k = 2 * 2 ^ (8 * k - 1) := by
    rw [← Nat.pow_succ', show (256 : Nat) = 2 ^ 8 from rfl, ← Nat.pow_mul]
    congr 1
    omega
  have whole : (2 : Nat) ^ (8 * k) = 2 * 2 ^ (8 * k - 1) := by
    rw [← Nat.pow_succ']
    congr 1
    omega
  have residue : (v % (256 ^ k : Nat)).toNat < 256 ^ k := by
    have hpos : (0 : Int) < (256 ^ k : Nat) := by positivity
    have := Int.emod_lt_of_pos v hpos
    omega
  rw [beInt, beNat_beBytes_of_lt residue, signedOf, whole, width]
  generalize 2 ^ (8 * k - 1) = m at hlo hhi
  rcases lt_or_ge v 0 with hneg | hpos
  · have wrapped : v % ((2 * m : Nat) : Int) = v + (2 * m : Nat) := by
      rw [← Int.add_emod_right, Int.emod_eq_of_lt (by omega) (by omega)]
    rw [wrapped, if_neg (by omega)]
    omega
  · have kept : v % ((2 * m : Nat) : Int) = v := Int.emod_eq_of_lt hpos (by omega)
    rw [kept, if_pos (by omega)]
    omega

/-! ## Fields of a run built of parts -/

theorem fieldAt_lt (bs : List Byte) (off len : Nat) : fieldAt bs off len < 256 ^ len :=
  (beNat_lt _).trans_le (Nat.pow_le_pow_right (by decide) (by simp))

/-- A field behind the first part. -/
theorem fieldAt_append_of_le {a : List Byte} {off : Nat} (h : a.length ≤ off) (b : List Byte) (len : Nat) :
    fieldAt (a ++ b) off len = fieldAt b (off - a.length) len := by
  rw [fieldAt, fieldAt, List.drop_append, List.drop_of_length_le h, List.nil_append]

/-- A field within the first part. -/
theorem fieldAt_append_of_within {a : List Byte} {off len : Nat} (h : off + len ≤ a.length) (b : List Byte) :
    fieldAt (a ++ b) off len = fieldAt a off len := by
  rw [fieldAt, fieldAt, List.drop_append_of_le_length (by omega), List.take_append_of_le_length (by simp; omega)]

/-- The field that the first part is. -/
theorem fieldAt_head {a : List Byte} {len : Nat} (h : a.length = len) (b : List Byte) : fieldAt (a ++ b) 0 len = beNat a := by
  rw [fieldAt, List.drop_zero, ← h, List.take_left]

/-- The field that the whole run is. -/
theorem fieldAt_whole {a : List Byte} {len : Nat} (h : a.length = len) : fieldAt a 0 len = beNat a := by
  rw [fieldAt, List.drop_zero, ← h, List.take_length]

end Sys2Proof.Machine
end

section
/-! Every command in outline: the table of the directives, what each directive's rule can do, and what the commands leave of the
Epoch Store and of the station records. -/

namespace Sys2Proof.Machine

/-! ## Steps and directives -/

/-- Settles O1: the queue of the state that a step is taken in is `c :: rest`. -/
theorem stepTakesFrontCommand : Obligations.StepTakesFrontCommand := fun _ _ _ => rfl

/-- A step is an idle one, or the command at the front of the queue. -/
theorem step_cases {s t : State} (h : step s = .next t) :
    t = s.idleStep ∨ ∃ c rest, exec c { s with pending := rest } = .next t := by
  unfold step at h
  split at h
  · exact .inl (Host.Outcome.next.inj h).symm
  · exact .inr ⟨_, _, h⟩

/-- What an idle step does: running time passes, or a step of the part's own is put in the queue (logs 2 and 3). -/
theorem idleStep_cases (s : State) :
    s.ownSteps = [] ∧ s.idleStep = s.run s.idleTime ∨
      ∃ c ∈ s.ownSteps, ∃ k, (k = s.ties ∨ k = s.ties + 1) ∧ s.idleStep = { s with pending := [c], ties := k } := by
  unfold State.idleStep
  split
  next h => exact .inl ⟨h, rfl⟩
  next c h => exact .inr ⟨c, by simp [h], s.ties, .inl rfl, rfl⟩
  next c c' cs h =>
    refine .inr ⟨_, ?_, s.ties + 1, .inr rfl, rfl⟩
    rw [h]
    have bound : Config.tieBreak s.ties % (cs.length + 2) < (c :: c' :: cs).length := Nat.mod_lt _ (Nat.succ_pos _)
    rw [List.getElem?_eq_getElem bound, Option.getD_some]
    exact List.getElem_mem bound

/-- A directive as the agent runs it: its code and parameter length, when it waits, and its own rule. -/
structure Directive where
  code   : Nat
  length : Nat
  waits  : State → List Byte → Bool
  rule   : State → List Byte → DirResult

/-- The directive of a command (R182). -/
def directiveOf : Instr → Option Directive
  | .identify => some ⟨0x01, 0, noWait, identifyRule⟩
  | .setPlan => some ⟨0x02, 6, noWait, setPlanRule⟩
  | .setReference => some ⟨0x03, 6, noWait, setReferenceRule⟩
  | .setLinks => some ⟨0x04, 3, noWait, setLinksRule⟩
  | .mapStation => some ⟨0x05, 6, noWait, mapStationRule⟩
  | .unmapStation => some ⟨0x06, 1, waitsForStation, unmapStationRule⟩
  | .setChannel => some ⟨0x07, 5, waitsForStation, setChannelRule⟩
  | .stageCorrection => some ⟨0x08, 25, waitsForStation, stageCorrectionRule⟩
  | .commitCorrection => some ⟨0x09, 7, waitsForStation, commitCorrectionRule⟩
  | .discardStaged => some ⟨0x0A, 1, waitsForStation, discardStagedRule⟩
  | .quarantine => some ⟨0x0B, 1, waitsForStation, quarantineRule⟩
  | .unquarantine => some ⟨0x0C, 1, waitsForStation, unquarantineRule⟩
  | .readStation => some ⟨0x0D, 1, noWait, readStationRule⟩
  | .readCounters => some ⟨0x0E, 3, noWait, readCountersRule⟩
  | .readStore => some ⟨0x0F, 0, noWait, readStoreRule⟩
  | .readFlags => some ⟨0x10, 0, noWait, readFlagsRule⟩
  | .clearFlags => some ⟨0x11, 2, noWait, clearFlagsRule⟩
  | .setNoticeMask => some ⟨0x12, 2, noWait, setNoticeMaskRule⟩
  | .storeStart => some ⟨0x13, 0, noWait, storeStartRule⟩
  | .storeStop => some ⟨0x14, 0, noWait, storeStopRule⟩
  | .storeSuspend => some ⟨0x15, 0, noWait, storeSuspendRule⟩
  | .storeResume => some ⟨0x16, 0, noWait, storeResumeRule⟩
  | .restart => some ⟨0x17, 0, waitsForPath, restartRule⟩
  | _ => none

def Directive.run (d : Directive) (s : State) : State := runDirective d.code d.length d.waits d.rule s

theorem exec_directive {i : Instr} {d : Directive} (h : directiveOf i = some d) (s : State) : exec i s = .next (d.run s) := by
  cases i <;> simp only [directiveOf, Option.some.injEq, reduceCtorEq] at h <;> subst h <;> rfl

/-- The model's table of codes and lengths is that of the directives. -/
theorem directiveCode_eq (i : Instr) : directiveCode i = (directiveOf i).map (fun d => (d.code, d.length)) := by
  cases i <;> rfl

theorem directiveOf_of_code {i : Instr} {code length : Nat} (h : directiveCode i = some (code, length)) :
    ∃ d, directiveOf i = some d ∧ d.code = code ∧ d.length = length := by
  rw [directiveCode_eq] at h
  obtain ⟨d, hd, heq⟩ := Option.map_eq_some_iff.1 h
  exact ⟨d, hd, congrArg Prod.fst heq, congrArg Prod.snd heq⟩

/-- What holds through the forming of answers, through a Withhold suspension and through every directive's own rule holds through
every directive. -/
theorem Directive.run_keeps {I : State → Prop} {d : Directive} {s : State}
    (answered : ∀ {u : State} q i a, I u → I { u with answerQueue := q, inbound := i, agent := a })
    (rule : I s.withhold → ∀ ps, I (d.rule s.withhold ps).state) (withheld : I s → I s.withhold) (h : I s) : I (d.run s) := by
  have finished : ∀ {u : State} (p e rest o data), I u → I (u.finishEntry p e rest o data) := fun {u} p e rest o data hu => by
    obtain ⟨q, i, a, hq⟩ := finishEntry_only u p e rest o data
    exact hq ▸ answered q i a hu
  unfold Directive.run
  rcases runDirective_cases d.code d.length d.waits d.rule s with heq | ⟨p, e, rest, -, -, -, hrun⟩
  · rwa [heq]
  · rcases hrun with ⟨-, heq⟩ | ⟨-, -, heq⟩ | ⟨-, -, heq⟩
    · exact heq ▸ finished _ _ _ _ _ h
    · exact heq ▸ answered s.answerQueue s.inbound (.held p) h
    · exact heq ▸ finished _ _ _ _ _ (rule (withheld h) _)

/-- An invariant that holds through the forming of answers and a Withhold suspension holds through every command, if it holds
through every directive's own rule and through every command that is no directive. -/
theorem exec_keeps {I : State → Prop}
    (answered : ∀ {u : State} q i a, I u → I { u with answerQueue := q, inbound := i, agent := a })
    (withheld : ∀ {u : State}, I u → I u.withhold)
    (rules : ∀ i d, directiveOf i = some d → ∀ {u : State} ps, u.failureSignal = false → I u → I (d.rule u ps).state)
    (others : ∀ i, directiveOf i = none → ∀ {u v : State}, exec i u = .next v → I u → I v)
    (i : Instr) {s t : State} (h : exec i s = .next t) (hs : I s) : I t := by
  cases hd : directiveOf i with
  | none => exact others i hd h hs
  | some d =>
    rw [exec_directive hd, Host.Outcome.next.injEq] at h
    exact h ▸ Directive.run_keeps answered (fun hw ps => rules i d hd ps (State.withhold_failureSignal s) hw) withheld hs

/-- An invariant that no move in the queue of commands touches holds through every step, if it holds through the passing of time
and through every command. -/
theorem step_keeps {I : State → Prop} (queued : ∀ {u : State} p k, I u → I { u with pending := p, ties := k })
    (time : ∀ {u : State}, u.ownSteps = [] → I u → I (u.run u.idleTime))
    (commands : ∀ c {u v : State}, exec c u = .next v → I u → I v) {s t : State} (hs : I s) (h : step s = .next t) : I t := by
  rcases step_cases h with rfl | ⟨c, rest, hc⟩
  · rcases idleStep_cases s with ⟨hown, heq⟩ | ⟨c, -, k, -, heq⟩
    · exact heq ▸ time hown hs
    · exact heq ▸ queued [c] k hs
  · exact commands c hc (queued rest s.ties hs)

/-! ## What each directive's own rule can do -/

theorem setPlanRule_state (s : State) (ps : List Byte) :
    (setPlanRule s ps).state = s ∨ ∃ plan : Plan, plan.inRange ∧
      (plan.hold + plan.epochLength - 1) / plan.epochLength + 2 ≤ plan.windowDepth ∧ s.channelsFit plan.epochLength = true ∧
      s.store = .idle ∧ (setPlanRule s ps).state = { s with plan := plan } := by
  by_cases hin : SetPlanInRange ps
  · rw [setPlanRule_of_inRange s hin]
    obtain ⟨hl, hw2, hw8, hh, -⟩ := hin
    split
    · exact .inl rfl
    · split
      · exact .inl rfl
      · split
        · exact .inl rfl
        next hidle hdeep hfit =>
          exact .inr ⟨_, (planInRange_iff _ _ _).2 ⟨hl, hw2, hw8, hh⟩, Nat.not_lt.1 hdeep, by simpa using hfit,
            not_not.1 hidle, rfl⟩
  · rw [setPlanRule_of_outOfRange s hin]
    exact .inl rfl

theorem setReferenceRule_state (s : State) (ps : List Byte) :
    (setReferenceRule s ps).state = s ∨ ∃ wl limit, (1 ≤ wl ∧ wl ≤ 1000 ∧ 10 ≤ limit ∧ limit ≤ 86400) ∧
      (setReferenceRule s ps).state =
        ({ s with ref := { s.ref with lockWindow := wl, holdoverLimit := limit } } : State).holdoverExpiry := by
  unfold setReferenceRule
  simp only
  split
  next h => exact .inr ⟨_, _, h, rfl⟩
  next => exact .inl rfl

/-- What SET-LINKS does in range: the settings, and then the expiries they bring about (R110, R148). -/
def State.withLinks (s : State) (loss stall : Nat) : State :=
  (((({ s with linkLossTime := loss, stallLimit := stall } : State).trunkExpiry .a).trunkExpiry .b).chainLinkExpiry).stallTimerExpiry

theorem setLinksRule_state (s : State) (ps : List Byte) :
    (setLinksRule s ps).state = s ∨ ∃ loss stall, (setLinksRule s ps).state = s.withLinks loss stall := by
  unfold setLinksRule
  simp only
  split
  next h => exact .inr ⟨_, _, rfl⟩
  next => exact .inl rfl

theorem mapStationRule_state (s : State) (ps : List Byte) :
    (mapStationRule s ps).state = s ∨ ∃ slot mask limit, slot ≤ 191 ∧ mapHas s.map (fieldAt ps 0 2) = false ∧
      s.map.length < 192 ∧ s.station slot = none ∧
      (mapStationRule s ps).state =
        ({ s with map := mapInsert { code := fieldAt ps 0 2, slot := slot } s.map } : State).putStation slot
          (freshStation (fieldAt ps 0 2) mask limit) := by
  by_cases hin : MapStationInRange ps
  · rw [mapStationRule_of_inRange s hin]
    obtain ⟨hslot, -⟩ := hin
    split
    · exact .inl rfl
    · split
      · exact .inl rfl
      · split
        · exact .inl rfl
        next hnew hroom hvacant =>
          exact .inr ⟨_, _, _, hslot, eq_false_of_ne_true hnew, Nat.not_le.1 hroom, by simpa using hvacant, rfl⟩
  · rw [mapStationRule_of_outOfRange s hin]
    exact .inl rfl

theorem unmapStationRule_state (s : State) (ps : List Byte) :
    (unmapStationRule s ps).state = s ∨ ∃ slot st, s.station slot = some st ∧ (st.state = .quarantined ∨ s.store = .idle) ∧
      (unmapStationRule s ps).state = s.unmap slot := by
  unfold unmapStationRule
  simp only
  split
  · exact .inl rfl
  · split
    · exact .inl rfl
    next st hst =>
      split
      · exact .inl rfl
      next hready => exact .inr ⟨_, st, hst, by tauto, rfl⟩

theorem setChannelRule_state (s : State) (ps : List Byte) :
    (setChannelRule s ps).state = s ∨ ∃ slot st c rate word order, s.station slot = some st ∧
      (samplesPerEpoch rate s.plan.epochLength).isSome = true ∧
      (setChannelRule s ps).state = s.setChannel slot st c rate word order := by
  unfold setChannelRule
  simp only
  split
  · split
    · split
      · exact .inl rfl
      next st hst =>
        split
        · exact .inl rfl
        · split
          · exact .inl rfl
          next hfit => exact .inr ⟨_, st, _, _, _, _, hst, by simpa [Option.isSome_iff_ne_none] using hfit, rfl⟩
    · exact .inl rfl
  · exact .inl rfl

theorem quarantineRule_state (s : State) (ps : List Byte) :
    (quarantineRule s ps).state = s ∨ ∃ slot st, s.station slot = some st ∧
      (quarantineRule s ps).state = s.putStation slot { st with state := .quarantined, silence := none } := by
  unfold quarantineRule
  simp only
  split
  · exact .inl rfl
  · split
    · exact .inl rfl
    next st hst =>
      split
      · exact .inl rfl
      · exact .inr ⟨_, st, hst, rfl⟩

/-- A station that UNQUARANTINE releases (R12). -/
def Station.released (st : Station) : Station :=
  { st with state := .configured, silence := none, channels := st.channels.mapAll (fun ch => { ch with window := none }) }

theorem unquarantineRule_state (s : State) (ps : List Byte) :
    (unquarantineRule s ps).state = s ∨ ∃ slot st, s.station slot = some st ∧
      (unquarantineRule s ps).state = s.putStation slot st.released := by
  unfold unquarantineRule
  simp only
  split
  · exact .inl rfl
  · split
    · exact .inl rfl
    next st hst =>
      split
      · exact .inr ⟨_, st, hst, rfl⟩
      · exact .inl rfl

theorem stageCorrectionRule_state (s : State) (ps : List Byte) :
    (stageCorrectionRule s ps).state = s ∨ ∃ slot st, s.station slot = some st ∧ StageInRange ps ∧
      (stageCorrectionRule s ps).state = s.putStation slot { st with staged := some (stagedOf ps) } := by
  by_cases hin : StageInRange ps
  · cases hst : s.station (fieldAt ps 0 1) with
    | none => exact .inl (congrArg DirResult.state (stageCorrectionRule_of_vacant hin hst))
    | some st => exact .inr ⟨_, st, hst, hin, congrArg DirResult.state (stageCorrectionRule_of_mapped hin hst)⟩
  · exact .inl (congrArg DirResult.state (stageCorrectionRule_of_outOfRange s hin))

theorem commitCorrectionRule_state (s : State) (ps : List Byte) :
    (commitCorrectionRule s ps).state = s ∨ ∃ slot st staged eSw, s.station slot = some st ∧ st.staged = some staged ∧
      st.previous = none ∧ (commitCorrectionRule s ps).state =
        s.putStation slot (st.committed staged (fieldAt ps 1 6) eSw (s.retiresAtOnce eSw)) := by
  rcases Nat.lt_or_ge 191 (fieldAt ps 0 1) with hout | hin
  · exact .inl (congrArg DirResult.state (commitCorrectionRule_of_outOfRange s hout))
  cases hst : s.station (fieldAt ps 0 1) with
  | none => exact .inl (congrArg DirResult.state (commitCorrectionRule_of_vacant hin hst))
  | some st =>
    cases hs : st.staged with
    | none => exact .inl (congrArg DirResult.state (commitCorrectionRule_of_unstaged hin hst hs))
    | some staged =>
      by_cases hp : st.previous = none
      · exact .inr ⟨_, st, staged, _, hst, hs, hp, congrArg DirResult.state (commitCorrectionRule_of_ready hin hst hs hp rfl rfl)⟩
      · exact .inl (congrArg DirResult.state (commitCorrectionRule_of_busy hin hst (by simp [hs]) hp))

theorem discardStagedRule_state (s : State) (ps : List Byte) :
    (discardStagedRule s ps).state = s ∨ ∃ slot st, s.station slot = some st ∧
      (discardStagedRule s ps).state = s.putStation slot { st with staged := none } := by
  unfold discardStagedRule
  simp only
  split
  · exact .inl rfl
  · split
    · exact .inl rfl
    next st hst =>
      split
      · exact .inl rfl
      · exact .inr ⟨_, st, hst, rfl⟩

theorem readStationRule_state (s : State) (ps : List Byte) : (readStationRule s ps).state = s := by
  unfold readStationRule
  simp only
  split
  · rfl
  · split <;> rfl

/-- READ-COUNTERS leaves the part, or clears the counters of the scope that it reads (R169). -/
theorem readCountersRule_state (s : State) (ps : List Byte) :
    (readCountersRule s ps).state = s ∨ (∃ p, (readCountersRule s ps).state = s.setTrunk p (s.trunk p).clearCounters) ∨
      (readCountersRule s ps).state = { s with chain := s.chain.clearCounters } ∨
      (∃ slot st, s.station slot = some st ∧ (readCountersRule s ps).state = s.putStation slot st.clearCounters) ∨
      (readCountersRule s ps).state = { s with globals := GlobalCounters.reset } := by
  unfold readCountersRule
  simp only
  split
  · exact .inl rfl
  next p _ =>
    split_ifs
    · exact .inr (.inl ⟨p, rfl⟩)
    · exact .inl rfl
  · split_ifs
    · exact .inr (.inr (.inl rfl))
    · exact .inl rfl
  · split
    · exact .inl rfl
    · split
      · exact .inl rfl
      next st hst =>
        split_ifs
        · exact .inr (.inr (.inr (.inl ⟨_, st, hst, rfl⟩)))
        · exact .inl rfl
  · split_ifs
    · exact .inr (.inr (.inr (.inr rfl)))
    · exact .inl rfl

theorem storeStartRule_state (s : State) (ps : List Byte) :
    (storeStartRule s ps).state = s ∨ s.store = .idle ∧
      (storeStartRule s ps).state = openFronts s.startEpoch 17 { s with store := .ready, eLo := some s.startEpoch } := by
  unfold storeStartRule
  split
  · exact .inl rfl
  next h => exact .inr ⟨not_not.1 h, rfl⟩

theorem storeStopRule_state (s : State) (ps : List Byte) :
    (storeStopRule s ps).state = s ∨ s.store ≠ .idle ∧
      (storeStopRule s ps).state = (s.dropRecords s.openRecords).becomeIdle.retireAll := by
  unfold storeStopRule
  split
  · exact .inl rfl
  next h => exact .inr ⟨h, rfl⟩

theorem storeSuspendRule_state (s : State) (ps : List Byte) :
    (storeSuspendRule s ps).state = s ∨ (s.store = .ready ∨ s.store = .starved) ∧ (storeSuspendRule s ps).state = s.suspend := by
  cases h : s.store <;> simp [storeSuspendRule, h, DirResult.leave, DirResult.done]

/-- STORE-RESUME makes a Suspended store Ready or Starved again (R99). -/
theorem storeResumeRule_state (s : State) (ps : List Byte) :
    (storeResumeRule s ps).state = s ∨ s.store = .suspended ∧
      ((storeResumeRule s ps).state = { s with store := .ready, rememberedStarved := false } ∨
        (storeResumeRule s ps).state = { s.enterStarved with rememberedStarved := false }) := by
  by_cases h : s.store = .suspended
  · rw [storeResumeRule_of_suspended h]
    split
    · exact .inr ⟨h, .inr rfl⟩
    · exact .inr ⟨h, .inl rfl⟩
  · cases hs : s.store <;> simp_all [storeResumeRule, DirResult.leave]

/-! ## What each other command can do -/

theorem arbiterTake_cases {s t : State} (h : exec .arbiterTake s = .next t) :
    t = s ∨ ∃ p bs rest, s.inHand = none ∧ (s.trunk p).fifo = bs :: rest ∧ t = (s.take p).handlePacket p bs := by
  change execArbiterTake s = _ at h
  unfold execArbiterTake at h
  obtain rfl := Host.Outcome.next.inj h
  split
  next p hfree _ =>
    split
    next bs rest hq => exact .inr ⟨p, bs, rest, ((pathFree_iff s).1 hfree).1, hq, rfl⟩
    next => exact .inl rfl
  next => exact .inl rfl

theorem handOff_cases {s t : State} (h : exec .handOff s = .next t) :
    t = s ∨ ∃ p, s.inHand = some p ∧
      ((s.store = .ready ∨ s.store = .starved) ∧ t = { s.place p with inHand := none } ∨
        ¬ (s.store = .ready ∨ s.store = .starved) ∧
          t = { s.modifyStation p.slot
                (·.count (fun c => { c with storeNotReady := bump c.storeNotReady p.samples.length })) with inHand := none }) := by
  change execHandOff s = _ at h
  unfold execHandOff at h
  obtain rfl := Host.Outcome.next.inj h
  split
  · exact .inl rfl
  next p hp =>
    split
    next hs => exact .inr ⟨p, hp, .inl ⟨hs, rfl⟩⟩
    next hs => exact .inr ⟨p, hp, .inr ⟨hs, rfl⟩⟩

theorem silenceTimerExpiry_cases {slot : Nat} {s t : State} (h : exec (.silenceTimerExpiry slot) s = .next t) :
    t = s ∨ ∃ st, s.station slot = some st ∧
      t = (s.putStation slot { st with state := .silent, silence := none }).raise .stationSilent := by
  change execSilenceTimerExpiry slot s = _ at h
  unfold execSilenceTimerExpiry at h
  obtain rfl := Host.Outcome.next.inj h
  split
  next st hst =>
    split
    · exact .inr ⟨st, hst, rfl⟩
    · exact .inl rfl
  next => exact .inl rfl

/-- A mark that steps delivers the close evaluation; any other sets the Reference Clock Unit alone (R45). -/
theorem timeMark_cases {mark : Mark} {s t : State} (h : exec (.timeMark mark) s = .next t) :
    t = (s.withhold.setRef (s.ref.mark mark).1).closeEvaluation ∨
      (s.ref.mark mark).2 = false ∧ t = s.setRef (s.ref.mark mark).1 := by
  change execTimeMark mark s = _ at h
  unfold execTimeMark at h
  obtain rfl := Host.Outcome.next.inj h
  split
  · exact .inl rfl
  next hstep => exact .inr ⟨eq_false_of_ne_true hstep, rfl⟩

theorem markTimerExpiry_cases {s t : State} (h : exec .markTimerExpiry s = .next t) : t = s ∨ t = s.setRef s.ref.loseMarks := by
  change execMarkTimerExpiry s = _ at h
  unfold execMarkTimerExpiry at h
  obtain rfl := Host.Outcome.next.inj h
  split
  · exact .inr rfl
  · exact .inl rfl

/-- A due holdover timer takes Holdover to Failed, with a signal to the store (R53, R55). -/
theorem holdoverExpiry_cases (s : State) :
    s.holdoverExpiry = s ∨ s.ref.state = .holdover ∧
      s.holdoverExpiry = ((s.setRef { s.ref with state := .failed, holdoverTimer := none }).raise .refFailed).signalFailure := by
  unfold State.holdoverExpiry
  split
  next h => exact .inr ⟨h.1, rfl⟩
  next => exact .inl rfl

theorem signalFailure_cases (s : State) :
    s.signalFailure = s ∨ s.plan.failureAction = .withhold ∧ (s.store = .ready ∨ s.store = .starved) ∧
      s.signalFailure = { s with failureSignal := true } := by
  unfold State.signalFailure
  split
  next h => exact .inr ⟨h.1, h.2, rfl⟩
  next => exact .inl rfl

theorem closeTimeReached_cases {s t : State} (h : exec .closeTimeReached s = .next t) :
    t = s ∨ t = s.withhold.closeEvaluation := by
  change execCloseTimeReached s = _ at h
  unfold execCloseTimeReached at h
  obtain rfl := Host.Outcome.next.inj h
  split
  · exact .inr rfl
  · exact .inl rfl

theorem stallTimerExpiry_cases (s : State) :
    s.stallTimerExpiry = s ∨ s.stallTimer.isSome = true ∧ s.stallTimerExpiry = { s.stallExpiry with stallTimer := some 0 } := by
  unfold State.stallTimerExpiry
  split
  next h =>
    refine .inr ⟨?_, rfl⟩
    cases ht : s.stallTimer <;> simp_all [timerDue]
  next => exact .inl rfl

theorem directivePacketArrival_cases {bs : List Byte} {s t : State} (h : exec (.directivePacketArrival bs) s = .next t) :
    t = { s with globals := { s.globals with receiveErrors := bump s.globals.receiveErrors } } ∨
      t = { s with chain := s.routeForward bs } ∨ t = ({ s with chain := s.routeForward bs } : State).offerInbound bs := by
  change execDirectivePacketArrival bs s = _ at h
  unfold execDirectivePacketArrival at h
  obtain rfl := Host.Outcome.next.inj h
  split
  · simp only
    split
    · exact .inr (.inr rfl)
    · exact .inr (.inl rfl)
  · exact .inl rfl

theorem offerInbound_cases (s : State) (bs : List Byte) :
    s.inbound.length < Config.inboundDepth ∧ s.offerInbound bs =
        { s with
          inbound := s.inbound ++ [bs]
          agent := if s.agent = .idle ∧ Config.answerDepth ≤ s.answerQueue.length then .waiting else s.agent
          globals := { s.globals with packetsTaken := bump s.globals.packetsTaken } } ∨
      s.offerInbound bs =
        { s.raise .mgmtDrop with globals := { s.globals with managementDrops := bump s.globals.managementDrops } } := by
  unfold State.offerInbound
  split
  next h => exact .inl ⟨h, rfl⟩
  next => exact .inr rfl

/-- What the chain port does with a packet that passed the intake checks (R153, R154). -/
theorem routeForward_cases (s : State) (bs : List Byte) :
    s.routeForward bs = s.chain ∨ s.routeForward bs = s.chain.countForwardDrop ∨
      s.chain.forwardQueue.length < Config.forwardDepth ∧ ∃ out, s.routeForward bs =
        { s.chain with forwardQueue := s.chain.forwardQueue ++ [bs], outgoing := out } := by
  unfold State.routeForward ChainPort.offerForward
  split
  · exact .inl rfl
  · split
    · split
      next h => exact .inr (.inr ⟨h.2, _, rfl⟩)
      next => exact .inr (.inl rfl)
    · split
      · exact .inl rfl
      · exact .inr (.inl rfl)

theorem forwardComplete_cases {s t : State} (h : exec .forwardComplete s = .next t) :
    t = s ∨ ∃ out, t = { s with chain := { s.chain with forwardQueue := s.chain.forwardQueue.tail, outgoing := out } } := by
  change execForwardComplete s = _ at h
  unfold execForwardComplete at h
  obtain rfl := Host.Outcome.next.inj h
  split
  · exact .inr ⟨_, rfl⟩
  · exact .inl rfl

theorem hold_cases {s t : State} (h : exec .hold s = .next t) : t = s ∨ t = { s with hold := .held, stallTimer := some 0 } := by
  change execHold s = _ at h
  unfold execHold at h
  obtain rfl := Host.Outcome.next.inj h
  split
  · exact .inr rfl
  · exact .inl rfl

theorem release_cases {s t : State} (h : exec .release s = .next t) : t = s ∨ t = { s with hold := .notHeld, stallTimer := none } := by
  change execRelease s = _ at h
  unfold execRelease at h
  obtain rfl := Host.Outcome.next.inj h
  split
  · exact .inr rfl
  · exact .inl rfl

theorem grant_cases {s t : State} (h : exec .grant s = .next t) : t = s ∨ ∃ src, t = s.grantSource src := by
  change execGrant s = _ at h
  unfold execGrant at h
  obtain rfl := Host.Outcome.next.inj h
  split
  · split
    · exact .inr ⟨_, rfl⟩
    · exact .inl rfl
  · exact .inl rfl

/-- A grant of an own frame makes the head record Emitting, or sends the next fragment of the Emitting one (R129, R138). -/
theorem grantOwn_cases (s : State) :
    s.grantOwn = s ∨
      (∃ i rest r e tx, s.emitter = .idle ∧ s.closedQueue = i :: rest ∧ assocGet s.records i = some r ∧ e.record = i ∧
        s.grantOwn =
          { s with
            records := assocPut s.records i { r with state := .emitting }, closedQueue := rest, emitter := .sending e .goesOn
            transmitting := tx }) ∨
      ∃ e tx, s.emitter = .building e ∧ s.grantOwn = { s with emitter := .sending e .goesOn, transmitting := tx } := by
  unfold State.grantOwn
  split
  next i rest he hq =>
    split
    next r hr => exact .inr (.inl ⟨i, rest, r, _, _, he, hq, hr, rfl, rfl⟩)
    next => exact .inl rfl
  next e he =>
    split
    · exact .inr (.inr ⟨e, _, he, rfl⟩)
    · exact .inl rfl
  next => exact .inl rfl

/-- A grant of another source moves its frame into transmission (R149, R150). -/
theorem grantSource_cases (s : State) (src : TxSource) :
    (∃ tx notice data, s.grantSource src = { s with transmitting := tx, noticeSlot := notice, nextData := data }) ∨
      s.grantSource src = { s.grantOwn with nextData := .passThrough } := by
  unfold State.grantSource
  split
  · split
    · exact .inl ⟨_, s.noticeSlot, s.nextData, rfl⟩
    · exact .inl ⟨s.transmitting, s.noticeSlot, s.nextData, rfl⟩
  · split
    · exact .inl ⟨_, none, s.nextData, rfl⟩
    · exact .inl ⟨s.transmitting, s.noticeSlot, s.nextData, rfl⟩
  · exact .inr rfl
  · split
    · exact .inl ⟨_, s.noticeSlot, _, rfl⟩
    · exact .inl ⟨s.transmitting, s.noticeSlot, s.nextData, rfl⟩

theorem fragmentCompletion_cases {s t : State} (h : exec .fragmentCompletion s = .next t) :
    t = s ∨ t = ({ s with transmitting := none } : State).completeFragment := by
  change execFragmentCompletion s = _ at h
  unfold execFragmentCompletion at h
  obtain rfl := Host.Outcome.next.inj h
  split
  · exact .inr rfl
  · exact .inl rfl

theorem answerCompletion_cases {s t : State} (h : exec .answerCompletion s = .next t) :
    t = s ∨ t = { s with transmitting := none, answerQueue := s.answerQueue.tail } := by
  change execAnswerCompletion s = _ at h
  unfold execAnswerCompletion at h
  obtain rfl := Host.Outcome.next.inj h
  split
  · exact .inr rfl
  · exact .inl rfl

theorem passThroughCompletion_cases {s t : State} (h : exec .passThroughCompletion s = .next t) :
    t = s ∨ ∃ out, t = { s with transmitting := none, chain := { s.chain with buffer := s.chain.buffer.tail, outwardHold := out } } := by
  change execPassThroughCompletion s = _ at h
  unfold execPassThroughCompletion at h
  obtain rfl := Host.Outcome.next.inj h
  split
  · exact .inr ⟨_, rfl⟩
  · exact .inl rfl

theorem noticeCompletion_cases {s t : State} (h : exec .noticeCompletion s = .next t) :
    t = s ∨ t = { s with transmitting := none, globals := { s.globals with noticesSent := bump s.globals.noticesSent } } := by
  change execNoticeCompletion s = _ at h
  unfold execNoticeCompletion at h
  obtain rfl := Host.Outcome.next.inj h
  split
  · exact .inr rfl
  · exact .inl rfl

/-- The head packet is begun with room for its answer; one that has nothing to execute is answered at once (R161, R162). -/
theorem beginPacket_cases {s t : State} (h : exec .beginPacket s = .next t) :
    t = s ∨ s.agent.progress = none ∧
      (t = { s with agent := .waiting } ∨ s.answerQueue.length < Config.answerDepth ∧
        ((∃ a, t = ({ s with
            globals := { s.globals with malformedPackets := bump s.globals.malformedPackets } } : State).placeAnswer a) ∨
          (∃ a, t = s.placeAnswer a) ∨ ∃ p : Progress, p.todo ≠ [] ∧ t = { s with agent := .executing p })) := by
  change execBeginPacket s = _ at h
  unfold execBeginPacket at h
  obtain rfl := Host.Outcome.next.inj h
  split
  next hp _ =>
    refine .inr ⟨hp, ?_⟩
    split
    next hroom =>
      refine .inr ⟨hroom, ?_⟩
      split
      · exact .inl ⟨_, rfl⟩
      · exact .inr (.inl ⟨_, rfl⟩)
      · exact .inr (.inr ⟨_, List.cons_ne_nil _ _, rfl⟩)
    next => exact .inl rfl
  next => exact .inl rfl

theorem unknown_cases {s t : State} (h : exec .unknown s = .next t) :
    t = s ∨ ∃ p e rest, s.agent.progress = some p ∧ p.todo = e :: rest ∧ t = s.finishEntry p e rest .unknown [] := by
  change execUnknown s = _ at h
  unfold execUnknown at h
  obtain rfl := Host.Outcome.next.inj h
  split
  · exact .inl rfl
  next p hp =>
    split
    · exact .inl rfl
    next e rest ht =>
      split
      · exact .inr ⟨p, e, rest, hp, ht, rfl⟩
      · exact .inl rfl

end Sys2Proof.Machine
end

section
/-! What the commands leave of the Epoch Store's settings and of the station records: the frame of the operations that touch no
station, and how a station record can change outside the directives that set it up. -/

namespace Sys2Proof.Machine

/-! ## Operations of the store and the Emitter that touch no station -/

/-- The six global counters are 32-bit quantities (R177). -/
def GlobalCounters.Fit (g : GlobalCounters) : Prop := ∀ c ∈ g.counterList, c ≤ counterMax

/-- As `StoreFrameMem`, with the station records, the window's place and a standing Withhold signal as they were, the store Idle
exactly when it was, and the global counters within their 32 bits. -/
structure EmissionFrame (s t : State) : Prop extends StoreFrameMem s t where
  stations          : t.stations = s.stations
  rememberedStarved : t.rememberedStarved = s.rememberedStarved
  failureSignal     : t.failureSignal = s.failureSignal
  eLo               : t.eLo = s.eLo
  pendingSkip       : t.pendingSkip = s.pendingSkip
  idle              : t.store = .idle ↔ s.store = .idle
  globals           : s.globals.Fit → t.globals.Fit

theorem EmissionFrame.rfl' {s : State} : EmissionFrame s s := ⟨StoreFrameMem.rfl', rfl, rfl, rfl, rfl, rfl, .rfl, id⟩

theorem EmissionFrame.comp {s t u : State} (h : EmissionFrame s t) (k : EmissionFrame t u) : EmissionFrame s u :=
  ⟨h.toStoreFrameMem.comp k.toStoreFrameMem, k.stations.trans h.stations, k.rememberedStarved.trans h.rememberedStarved,
    k.failureSignal.trans h.failureSignal, k.eLo.trans h.eLo, k.pendingSkip.trans h.pendingSkip, k.idle.trans h.idle,
    fun hg => k.globals (h.globals hg)⟩

theorem EmissionFrame.foldl {α : Type} {f : State → α → State} (h : ∀ s a, EmissionFrame s (f s a)) (l : List α) (s : State) :
    EmissionFrame s (l.foldl f s) := by
  induction l generalizing s with
  | nil => exact EmissionFrame.rfl'
  | cons a t ih => exact (h s a).comp (ih (f s a))

theorem EmissionFrame.withEmitter {s t : State} (h : EmissionFrame s t) (e : Emitter) :
    EmissionFrame s { t with emitter := e } :=
  ⟨withEmitter_frame h.toStoreFrameMem e, h.stations, h.rememberedStarved, h.failureSignal, h.eLo, h.pendingSkip, h.idle, h.globals⟩

theorem EmissionFrame.withDeferred {s t : State} (h : EmissionFrame s t) (n : Nat) :
    EmissionFrame s { t with deferredExpiries := n } :=
  ⟨withDeferred_frame h.toStoreFrameMem n, h.stations, h.rememberedStarved, h.failureSignal, h.eLo, h.pendingSkip, h.idle, h.globals⟩

/-- An operation that moves the records, the free pages and the closed-epoch queue alone. -/
theorem EmissionFrame.of_records (s : State) (rs : Assoc EpochRecord) (ps : List PageNo) (q : List Nat) :
    EmissionFrame s { s with records := rs, freePages := ps, closedQueue := q } :=
  ⟨⟨by constructor <;> rfl, rfl⟩, rfl, rfl, rfl, rfl, rfl, .rfl, id⟩

theorem raise_emission (s : State) (f : EventFlag) : EmissionFrame s (s.raise f) := by
  refine ⟨raise_frame s f, ?_, ?_, ?_, ?_, ?_, ?_, ?_⟩ <;> simp

theorem dropRecord_emission (s : State) (i : Nat) : EmissionFrame s (s.dropRecord i) := by
  unfold State.dropRecord
  split
  · exact .of_records s _ _ _
  · exact .rfl'

theorem endStarved_emission (s : State) : EmissionFrame s s.endStarved := by
  refine ⟨endStarved_frame s, ?_, ?_, ?_, ?_, ?_, ?_, ?_⟩
  case refine_6 =>
    unfold State.endStarved
    split
    next h => simp [h.1]
    next => rfl
  all_goals simp

theorem openEpoch_emission (s : State) (i e : Nat) : EmissionFrame s (s.openEpoch i e) := .of_records s _ _ _

theorem openFrontAfterFree_emission (s : State) : EmissionFrame s s.openFrontAfterFree := by
  unfold State.openFrontAfterFree
  split
  · split
    · exact openEpoch_emission s _ _
    · exact .rfl'
  · exact .rfl'

theorem freeEmitted_emission (s : State) (i : Nat) : EmissionFrame s (s.freeEmitted i) :=
  ((dropRecord_emission s i).comp (endStarved_emission _)).comp (openFrontAfterFree_emission _)

theorem emptySegment_emission (s : State) (i slot : Nat) (c : Fin 4) (n : Nat) : EmissionFrame s (s.emptySegment i slot c n) := by
  unfold State.emptySegment
  split
  · exact .of_records s _ _ _
  · exact .rfl'

theorem emptyOpen_emission (s : State) (slot : Nat) (cs : List (Fin 4)) (n : Nat) : EmissionFrame s (s.emptyOpen slot cs n) :=
  (EmissionFrame.foldl (fun s (p : Nat × EpochRecord) =>
    EmissionFrame.foldl (fun s c => emptySegment_emission s p.1 slot c n) cs s) _ s).comp (endStarved_emission _)

theorem dropRecords_emission (s : State) (rs : List (Nat × EpochRecord)) : EmissionFrame s (s.dropRecords rs) :=
  EmissionFrame.foldl (fun s (p : Nat × EpochRecord) => dropRecord_emission s p.1) _ s

theorem openFronts_emission (lo k : Nat) (s : State) : EmissionFrame s (openFronts lo k s) := by
  induction k generalizing s with
  | zero => exact .rfl'
  | succ k ih =>
    unfold openFronts
    split
    · split
      · exact (openEpoch_emission s _ _).comp (ih _)
      · exact raise_emission s _
    · exact .rfl'

theorem openWindow_emission (s : State) : EmissionFrame s s.openWindow := by
  unfold State.openWindow
  split
  · exact openFronts_emission _ _ s
  · exact .rfl'

theorem freeSegmentPages_emission (s : State) (i slot : Nat) (c : Fin 4) : EmissionFrame s (s.freeSegmentPages i slot c) := by
  unfold State.freeSegmentPages
  split
  · exact .of_records s _ _ _
  · exact .rfl'

theorem freeFragmentPages_emission (s : State) (e : Emission) : EmissionFrame s (s.freeFragmentPages e) :=
  EmissionFrame.foldl (fun s slot => EmissionFrame.foldl (fun s c => freeSegmentPages_emission s e.record slot c) _ s) _ s

theorem countDrop_emission (s : State) : EmissionFrame s s.countDrop := by
  refine ⟨countDrop_frame s, ?_, ?_, ?_, ?_, ?_, ?_, ?_⟩
  case refine_7 =>
    intro h
    simp only [GlobalCounters.Fit, State.countDrop, GlobalCounters.counterList, List.forall_mem_cons] at h ⊢
    simp only [h, bump_le, List.not_mem_nil, false_imp_iff, implies_true, and_self]
  all_goals simp [State.countDrop]

theorem dropHead_emission (s : State) : EmissionFrame s s.dropHead := by
  unfold State.dropHead
  split
  · exact ((EmissionFrame.of_records s _ _ _).comp (freeEmitted_emission _ _)).comp (countDrop_emission _)
  · exact .rfl'

theorem dropHeads_emission (k : Nat) (s : State) : EmissionFrame s (dropHeads k s) := by
  induction k generalizing s with
  | zero => exact .rfl'
  | succ k ih => exact (dropHead_emission s).comp (ih _)

theorem stallExpiry_emission (s : State) : EmissionFrame s s.stallExpiry := by
  unfold State.stallExpiry
  split
  · exact dropHead_emission s
  · exact ((freeEmitted_emission _ _).withEmitter _).comp (countDrop_emission _)
  · split
    · exact dropHead_emission s
    · split
      · exact EmissionFrame.rfl'.withDeferred _
      · exact (EmissionFrame.rfl'.withEmitter _).comp (countDrop_emission _)

theorem completeFragment_emission (s : State) : EmissionFrame s s.completeFragment := by
  unfold State.completeFragment
  split
  · simp only
    split
    · exact (((((freeFragmentPages_emission s _).comp (endStarved_emission _)).comp (freeEmitted_emission _ _)).withEmitter
        _).comp (dropHeads_emission _ _)).withDeferred _
    · exact ((freeFragmentPages_emission s _).comp (endStarved_emission _)).withEmitter _
  · exact ((((freeFragmentPages_emission s _).comp (freeEmitted_emission _ _)).withEmitter _).comp
      (dropHeads_emission _ _)).withDeferred _
  · exact .rfl'

/-! ## How a station record can change -/

/-- A station's silence timer has not overrun its limit and runs exactly in Tracking (R8). -/
def Station.TimerOk (st : Station) : Prop :=
  timerWithin st.silenceNs st.silence ∧ (st.silence.isSome = true ↔ st.state = .tracking)

/-- The eighteen counters of a station are 32-bit quantities (R22). -/
def Station.CountersFit (st : Station) : Prop := ∀ c ∈ st.counterList, c ≤ counterMax

/-- What a station record keeps outside the directives that set it up and the passing of time: its code, its settings and its
correction records but for a previous one retired; its counters stay within 32 bits and its silence timer in order. -/
structure Station.Evolves (a b : Station) : Prop where
  code         : b.code = a.code
  mask         : b.mask = a.mask
  silenceLimit : b.silenceLimit = a.silenceLimit
  rate         : ∀ c, (b.channels.get c).rate = (a.channels.get c).rate
  current      : b.current = a.current
  staged       : b.staged = a.staged
  previous     : b.previous = a.previous ∨ b.previous = none
  timer        : a.TimerOk → b.TimerOk
  counters     : a.CountersFit → b.CountersFit

theorem Station.Evolves.rfl' {a : Station} : a.Evolves a := ⟨rfl, rfl, rfl, fun _ => rfl, rfl, rfl, .inl rfl, id, id⟩

theorem Station.Evolves.comp {a b c : Station} (h : a.Evolves b) (k : b.Evolves c) : a.Evolves c where
  code := k.code.trans h.code
  mask := k.mask.trans h.mask
  silenceLimit := k.silenceLimit.trans h.silenceLimit
  rate := fun i => (k.rate i).trans (h.rate i)
  current := k.current.trans h.current
  staged := k.staged.trans h.staged
  previous := k.previous.elim (fun e => e ▸ h.previous) .inr
  timer := fun hq => k.timer (h.timer hq)
  counters := fun hq => k.counters (h.counters hq)

/-- The station records of `t` are those of `s`, each evolved. -/
structure StationsEvolve (s t : State) : Prop where
  listed : ∀ slot b, (slot, b) ∈ t.stations → ∃ a, (slot, a) ∈ s.stations ∧ a.Evolves b
  looked : ∀ slot, Option.Rel Station.Evolves (s.station slot) (t.station slot)
  sorted : assocSorted s.stations = true → assocSorted t.stations = true

theorem StationsEvolve.of_eq {s t : State} (h : t.stations = s.stations) : StationsEvolve s t where
  listed := fun slot b hb => ⟨b, h ▸ hb, .rfl'⟩
  looked := fun slot => by
    rw [State.station, State.station, h]
    cases assocGet s.stations slot with
    | none => exact .none
    | some a => exact .some .rfl'
  sorted := fun hs => h ▸ hs

theorem StationsEvolve.comp {s t u : State} (h : StationsEvolve s t) (k : StationsEvolve t u) : StationsEvolve s u where
  listed := fun slot c hc => by
    obtain ⟨b, hb, hbc⟩ := k.listed slot c hc
    obtain ⟨a, ha, hab⟩ := h.listed slot b hb
    exact ⟨a, ha, hab.comp hbc⟩
  looked := fun slot => by
    have hst := h.looked slot
    have htu := k.looked slot
    generalize s.station slot = a at hst ⊢
    generalize t.station slot = b at hst htu
    generalize u.station slot = c at htu ⊢
    cases hst with
    | none => exact htu
    | some hab =>
      cases htu with
      | some hbc => exact .some (hab.comp hbc)
  sorted := fun hs => k.sorted (h.sorted hs)

theorem StationsEvolve.ofFrame {s t : State} (h : EmissionFrame s t) : StationsEvolve s t := .of_eq h.stations

theorem StationsEvolve.putStation {s : State} {slot : Nat} {a b : Station} (ha : s.station slot = some a) (h : a.Evolves b) :
    StationsEvolve s (s.putStation slot b) where
  listed := fun k c hc => by
    rcases mem_assocPut hc with heq | hc
    · cases heq
      exact ⟨a, mem_of_assocGet ha, h⟩
    · exact ⟨c, hc, .rfl'⟩
  looked := fun k => by
    rw [station_putStation]
    split
    next hk =>
      rw [hk, ha]
      exact .some h
    next => exact (StationsEvolve.of_eq (s := s) (t := s) rfl).looked k
  sorted := fun hs => assocSorted_put _ _ hs

theorem StationsEvolve.modifyStation (s : State) (slot : Nat) {f : Station → Station} (h : ∀ a : Station, a.Evolves (f a)) :
    StationsEvolve s (s.modifyStation slot f) := by
  unfold State.modifyStation
  split
  next a ha => exact .putStation ha (h a)
  next => exact .of_eq rfl

theorem StationsEvolve.map {s t : State} {f : Station → Station} (ht : t.stations = assocMap f s.stations)
    (h : ∀ a : Station, a.Evolves (f a)) : StationsEvolve s t where
  listed := fun slot b hb => by
    rw [ht] at hb
    obtain ⟨a, ha, rfl⟩ := mem_assocMap.1 hb
    exact ⟨a, ha, h a⟩
  looked := fun slot => by
    rw [State.station, State.station, ht, assocGet_map]
    cases assocGet s.stations slot with
    | none => exact .none
    | some a => exact .some (h a)
  sorted := fun hs => ht ▸ assocSorted_map f hs

/-! ## The changes of a station record -/

theorem forall_mem_counterList (st : Station) (P : Nat → Prop) :
    (∀ c ∈ st.counterList, P c) ↔
      (∀ c ∈ st.counters.counterList, P c) ∧ ∀ i, P (st.channels.get i).duplicates ∧ P (st.channels.get i).stale := by
  simp [Station.counterList, Quad.toList, Quad.get, Fin.forall_fin_succ, or_imp, forall_and]
  tauto

theorem get_set {α : Type} (q : Quad α) (c i : Fin 4) (v : α) : (q.set c v).get i = if i = c then v else q.get i := by
  fin_cases c <;> fin_cases i <;> rfl

/-- A change of the counters alone. -/
theorem Station.Evolves.count {a : Station} {f : StationCounters → StationCounters}
    (h : (∀ c ∈ a.counters.counterList, c ≤ counterMax) → ∀ c ∈ (f a.counters).counterList, c ≤ counterMax) :
    a.Evolves (a.count f) where
  code := rfl
  mask := rfl
  silenceLimit := rfl
  rate := fun _ => rfl
  current := rfl
  staged := rfl
  previous := .inl rfl
  timer := id
  counters := fun hfit => by
    rw [CountersFit, forall_mem_counterList] at hfit ⊢
    exact ⟨h hfit.1, hfit.2⟩

theorem retireBelow_evolves (lo : Nat) (a : Station) : a.Evolves (retireBelow lo a) := by
  unfold retireBelow
  split
  · split
    · exact ⟨rfl, rfl, rfl, fun _ => rfl, rfl, rfl, .inr rfl, id, id⟩
    · exact .rfl'
  · exact .rfl'

theorem retirePrevious_evolves (a : Station) : a.Evolves (retirePrevious a) :=
  ⟨rfl, rfl, rfl, fun _ => rfl, rfl, rfl, .inr rfl, id, id⟩

/-- A silence timer that is stopped is in order outside Tracking. -/
theorem Station.timerOk_of_stopped {st : Station} (h : st.silence = none) (hs : st.state ≠ .tracking) : st.TimerOk :=
  ⟨fun _ he => (by rw [h] at he; cases he), by simp [h, hs]⟩

/-- A station that leaves Tracking, its silence timer stopped (R8, R10, R11). -/
theorem Station.Evolves.stopped (a : Station) {x : StationState} (hx : x ≠ .tracking) :
    a.Evolves { a with state := x, silence := none } :=
  ⟨rfl, rfl, rfl, fun _ => rfl, rfl, rfl, .inl rfl, fun _ => timerOk_of_stopped rfl hx, id⟩

theorem released_evolves (a : Station) : a.Evolves a.released where
  code := rfl
  mask := rfl
  silenceLimit := rfl
  rate := fun c => by rw [Station.released, get_mapAll]
  current := rfl
  staged := rfl
  previous := .inl rfl
  timer := fun _ => Station.timerOk_of_stopped rfl nofun
  counters := fun h => by
    rw [Station.CountersFit, forall_mem_counterList] at h ⊢
    exact ⟨h.1, fun i => by simpa only [Station.released, get_mapAll] using h.2 i⟩

theorem clearCounters_evolves (a : Station) : a.Evolves a.clearCounters where
  code := rfl
  mask := rfl
  silenceLimit := rfl
  rate := fun c => by rw [Station.clearCounters, get_mapAll]
  current := rfl
  staged := rfl
  previous := .inl rfl
  timer := id
  counters := fun _ c hc => counterList_clearCounters a c hc ▸ Nat.zero_le _

theorem counterList_restartStation (st : Station) : ∀ c ∈ (restartStation st).counterList, c = 0 := by
  simp [restartStation, Station.counterList, StationCounters.counterList, StationCounters.zero, Quad.mapAll, Quad.toList]

theorem restartStation_evolves (a : Station) : a.Evolves (restartStation a) where
  code := rfl
  mask := rfl
  silenceLimit := rfl
  rate := fun c => by rw [restartStation, get_mapAll]
  current := rfl
  staged := rfl
  previous := .inr rfl
  timer := fun _ => Station.timerOk_of_stopped rfl (by unfold restartStation; simp only; split <;> nofun)
  counters := fun _ c hc => counterList_restartStation a c hc ▸ Nat.zero_le _

/-- A channel after a packet has been judged: its settings kept, its counters within 32 bits (R21). -/
theorem Station.Evolves.setChannel (a : Station) (c : Fin 4) {ch : Channel} (hr : ch.rate = (a.channels.get c).rate)
    (hd : (a.channels.get c).duplicates ≤ counterMax → ch.duplicates ≤ counterMax)
    (hs : (a.channels.get c).stale ≤ counterMax → ch.stale ≤ counterMax) :
    a.Evolves { a with channels := a.channels.set c ch } where
  code := rfl
  mask := rfl
  silenceLimit := rfl
  rate := fun i => by
    rw [get_set]
    split
    next hi => rw [hi, hr]
    next => rfl
  current := rfl
  staged := rfl
  previous := .inl rfl
  timer := id
  counters := fun h => by
    rw [CountersFit, forall_mem_counterList] at h ⊢
    obtain ⟨hc, hch⟩ := h
    refine ⟨hc, fun i => ?_⟩
    simp only [get_set]
    split
    · exact ⟨hd (hch c).1, hs (hch c).2⟩
    · exact hch i

/-- An accepted packet: the station is Tracking with its silence timer at 0 (R7). -/
theorem acceptStation_evolves (a : Station) : a.Evolves (acceptStation a) where
  code := rfl
  mask := rfl
  silenceLimit := rfl
  rate := fun _ => rfl
  current := rfl
  staged := rfl
  previous := .inl rfl
  timer := fun _ => ⟨fun _ he => Option.some.inj he ▸ Nat.zero_le _, by simp [acceptStation]⟩
  counters := fun h => by
    rw [Station.CountersFit, forall_mem_counterList] at h ⊢
    obtain ⟨hc, hch⟩ := h
    refine ⟨?_, hch⟩
    simp only [StationCounters.counterList, List.forall_mem_cons, acceptStation] at hc ⊢
    exact ⟨bump_le _ _, hc.2⟩

/-! ## The station records through the operations -/

theorem closeRecord_stations (s : State) (i : Nat) : StationsEvolve s (s.closeRecord i) := by
  unfold State.closeRecord
  split
  · exact .map rfl (retireBelow_evolves _)
  · exact .of_eq rfl

theorem StationsEvolve.foldl {α : Type} {f : State → α → State} (h : ∀ s a, StationsEvolve s (f s a)) (l : List α) (s : State) :
    StationsEvolve s (l.foldl f s) := by
  induction l generalizing s with
  | nil => exact .of_eq rfl
  | cons a t ih => exact (h s a).comp (ih (f s a))

theorem skipTo_stations (s : State) (first : Nat) : StationsEvolve s (s.skipTo first) := by
  unfold State.skipTo
  split
  · split
    · exact .map (f := Machine.retireBelow first) (by simp) (retireBelow_evolves first)
    · exact .of_eq rfl
  · exact .of_eq rfl

theorem closeEvaluation_stations (s : State) : StationsEvolve s s.closeEvaluation := by
  unfold State.closeEvaluation
  split
  · exact .of_eq rfl
  · exact ((StationsEvolve.foldl (fun s (p : Nat × EpochRecord) => closeRecord_stations s p.1) _ s).comp
      (skipTo_stations _ _)).comp (.ofFrame (openWindow_emission _))

theorem forall_mem_stationCounters (x : StationCounters) (P : Nat → Prop) :
    (∀ c ∈ x.counterList, P c) ↔ P x.accepted ∧ P x.byRoute ∧ P x.byQuarantine ∧ P x.byFormat ∧ P x.storeNotReady ∧ P x.late ∧
      P x.future ∧ P x.noRecord ∧ P x.noPage ∧ P x.overlap := by
  simp [StationCounters.counterList]

theorem placeInRecord_stations (s : State) (i : Nat) (r : EpochRecord) (p : InHand) (slot : Nat) (v : Sample) :
    StationsEvolve s (s.placeInRecord i r p slot v) := by
  have written (u : State) (hu : u.stations = s.stations) (page : PageNo) : StationsEvolve s (u.writeSample i p slot page v) := by
    refine .of_eq ?_
    unfold State.writeSample
    split <;> exact hu
  have overlap : StationsEvolve s
      ((s.markOverlap i p).modifyStation p.slot (·.count (fun c => { c with overlap := bump c.overlap }))) := by
    have marked : (s.markOverlap i p).stations = s.stations := by
      unfold State.markOverlap State.modifyRecord
      split <;> rfl
    refine (StationsEvolve.of_eq marked).comp (.modifyStation _ _ fun a => .count ?_)
    simp only [forall_mem_stationCounters, bump_le]
    tauto
  have noPage (u : State) (hu : u.stations = s.stations) : StationsEvolve s
      (u.modifyStation p.slot (·.count (fun c => { c with noPage := bump c.noPage }))) := by
    refine (StationsEvolve.of_eq hu).comp (.modifyStation _ _ fun a => .count ?_)
    simp only [forall_mem_stationCounters, bump_le, true_and]
    tauto
  unfold State.placeInRecord
  simp only
  split
  · split
    · exact overlap
    · exact written s rfl _
  · split
    · exact overlap
    · obtain ⟨flags, notice, htake, -⟩ := takePage_only s
      exact written s.takePage (by rw [htake]) _
  · exact noPage _ (by simp)
  · exact noPage s rfl

theorem placeSample_stations (s : State) (p : InHand) (n gs : Nat) (v : Sample) : StationsEvolve s (s.placeSample p n gs v) := by
  unfold State.placeSample
  simp only
  split
  · refine .modifyStation _ _ fun a => .count ?_
    simp only [forall_mem_stationCounters, bump_le, true_and]
    tauto
  · split
    · refine .modifyStation _ _ fun a => .count ?_
      simp only [forall_mem_stationCounters, bump_le, true_and]
      tauto
    · split
      · refine .modifyStation _ _ fun a => .count ?_
        simp only [forall_mem_stationCounters, bump_le, true_and]
        tauto
      · exact placeInRecord_stations _ _ _ _ _ _

theorem placeSamples_stations (p : InHand) (n : Nat) (vs : List Sample) (gs : Nat) (s : State) :
    StationsEvolve s (placeSamples p n gs vs s) := by
  induction vs generalizing gs s with
  | nil => exact .of_eq rfl
  | cons v vs ih => exact (placeSample_stations s p n gs v).comp (ih _ _)

theorem routeLoss_stations (s : State) : StationsEvolve s s.routeLoss := by
  have silenced : StationsEvolve s { s with
      stations := assocMap (fun st => if s.losesRoute st then { st with state := .silent, silence := none } else st) s.stations } := by
    refine .map rfl fun a => ?_
    split
    · exact .stopped a nofun
    · exact .rfl'
  unfold State.routeLoss
  simp only
  split
  · exact silenced.comp (.of_eq (by simp))
  · exact silenced

theorem portDown_stations (s : State) (p : Port) : StationsEvolve s (s.portDown p) := by
  unfold State.portDown
  split
  · exact (StationsEvolve.of_eq (by simp)).comp (routeLoss_stations _)
  · exact .of_eq rfl

/-- What becomes of a packet whose station and channel are known: the station evolves, and an accepted packet is in hand (R116). -/
theorem filterPacket_cases (s : State) (p : Port) (slot : Nat) (st : Station) (c : Fin 4) (pk : StationPacket) :
    ∃ b, st.Evolves b ∧ (s.filterPacket p slot st c pk = s.putStation slot b ∨
      ∃ q : InHand, q.slot = slot ∧ q.channel = c ∧
        s.filterPacket p slot st c pk = { s.putStation slot b with inHand := some q }) := by
  unfold State.filterPacket
  simp only
  split
  · refine ⟨_, ?_, .inl rfl⟩
    exact .setChannel st c rfl (fun _ => bump_le _ _) id
  · refine ⟨_, ?_, .inl rfl⟩
    exact .setChannel st c rfl id (fun _ => bump_le _ _)
  next w _ =>
    exact ⟨_, (Station.Evolves.setChannel st c (ch := { st.channels.get c with window := some w }) rfl id id).comp
      (acceptStation_evolves _), .inr ⟨_, rfl, rfl, rfl⟩⟩

theorem formatCheck_configured {st : Station} {pk : StationPacket} {c : Fin 4} (h : formatCheck st pk = some c) :
    (st.channels.get c).rate ≠ 0 := by
  unfold formatCheck at h
  split at h
  · simp only at h
    split at h
    next hok => exact Option.some.inj h ▸ hok.1
    next => cases h
  · cases h

/-- What becomes of a packet taken: its port's counter rises, or a station evolves, and an accepted packet is in hand, of a
configured channel (R113). -/
theorem handlePacket_cases (s : State) (p : Port) (bs : List Byte) :
    s.handlePacket p bs = s.setTrunk p { s.trunk p with unknownStation := bump (s.trunk p).unknownStation } ∨
      s.handlePacket p bs = s ∨ ∃ slot a b, s.station slot = some a ∧ a.Evolves b ∧
        (s.handlePacket p bs = s.putStation slot b ∨
          ∃ q : InHand, q.slot = slot ∧ (a.channels.get q.channel).rate ≠ 0 ∧
            s.handlePacket p bs = { s.putStation slot b with inHand := some q }) := by
  unfold State.handlePacket
  simp only
  split
  · exact .inl rfl
  next slot _ =>
    split
    · exact .inr (.inl rfl)
    next st hst =>
      refine .inr (.inr ⟨slot, st, ?_⟩)
      split
      · refine ⟨_, hst, .count ?_, .inl rfl⟩
        simp only [forall_mem_stationCounters, bump_le, true_and]
        tauto
      · split
        · refine ⟨_, hst, .count ?_, .inl rfl⟩
          simp only [forall_mem_stationCounters, bump_le, true_and]
          tauto
        · split
          · refine ⟨_, hst, .count ?_, .inl rfl⟩
            simp only [forall_mem_stationCounters, bump_le, true_and]
            tauto
          next c hc =>
            obtain ⟨b, hb, heq | ⟨q, hslot, hchannel, heq⟩⟩ := filterPacket_cases s p slot st c (readStationPacket bs)
            · exact ⟨b, hst, hb, .inl heq⟩
            · exact ⟨b, hst, hb, .inr ⟨q, hslot, hchannel ▸ formatCheck_configured hc, heq⟩⟩

theorem handlePacket_stations (s : State) (p : Port) (bs : List Byte) : StationsEvolve s (s.handlePacket p bs) := by
  rcases handlePacket_cases s p bs with h | h | ⟨slot, a, b, ha, hab, h | ⟨q, -, -, h⟩⟩
  · exact .of_eq (by simp [h])
  · exact .of_eq (by rw [h])
  · exact h ▸ .putStation ha hab
  · exact h ▸ (StationsEvolve.putStation ha hab).comp (.of_eq rfl)

theorem stallTimerExpiry_stations (s : State) : StationsEvolve s s.stallTimerExpiry := by
  rcases stallTimerExpiry_cases s with h | ⟨-, h⟩
  · exact .of_eq (by rw [h])
  · exact .of_eq (by rw [h, (stallExpiry_emission s).stations])

theorem chainLinkExpiry_stations (s : State) : StationsEvolve s s.chainLinkExpiry := by
  unfold State.chainLinkExpiry
  split <;> exact .of_eq rfl

theorem trunkExpiry_stations (s : State) (p : Port) : StationsEvolve s (s.trunkExpiry p) := by
  unfold State.trunkExpiry
  split
  · exact portDown_stations s p
  · exact .of_eq rfl

theorem withLinks_stations (s : State) (loss stall : Nat) : StationsEvolve s (s.withLinks loss stall) := by
  have set : StationsEvolve s { s with linkLossTime := loss, stallLimit := stall } := .of_eq rfl
  exact (((set.comp (trunkExpiry_stations _ .a)).comp (trunkExpiry_stations _ .b)).comp
    (chainLinkExpiry_stations _)).comp (stallTimerExpiry_stations _)

theorem holdoverExpiry_stations (s : State) : s.holdoverExpiry.stations = s.stations := by
  rcases holdoverExpiry_cases s with h | ⟨-, h⟩
  · rw [h]
  · rw [h]
    rcases signalFailure_cases ((s.setRef { s.ref with state := .failed, holdoverTimer := none }).raise .refFailed) with h | ⟨-, -, h⟩ <;>
      simp [h]

theorem restartAll_stations (s : State) : StationsEvolve s s.restartAll := .map rfl restartStation_evolves

theorem grantSource_stations (s : State) (src : TxSource) : (s.grantSource src).stations = s.stations := by
  rcases grantSource_cases s src with ⟨_, _, _, h⟩ | h
  · rw [h]
  · rw [h]
    rcases grantOwn_cases s with h | ⟨_, _, _, _, _, -, -, -, -, h⟩ | ⟨_, _, -, h⟩ <;> rw [h]

/-- The commands after which a station record is another: those that set one up, remove one, or set its channels or correction
records. -/
def setsStations : Instr → Bool
  | .powerOnReset _ | .mapStation | .unmapStation | .setChannel | .stageCorrection | .commitCorrection | .discardStaged => true
  | _ => false

/-- Every other directive's own rule. -/
theorem rule_stations {i : Instr} {d : Directive} (hd : directiveOf i = some d) (hi : setsStations i = false) (s : State)
    (ps : List Byte) : StationsEvolve s (d.rule s ps).state := by
  cases i <;> simp only [directiveOf, Option.some.injEq, reduceCtorEq] at hd <;> subst hd <;> try simp only
  case mapStation | unmapStation | setChannel | stageCorrection | commitCorrection | discardStaged => exact nomatch hi
  case identify | readStore | readFlags | clearFlags | setNoticeMask => exact .of_eq rfl
  case setPlan =>
    rcases setPlanRule_state s ps with h | ⟨_, -, -, -, -, h⟩ <;> exact .of_eq (by rw [h])
  case setReference =>
    rcases setReferenceRule_state s ps with h | ⟨_, _, -, h⟩
    · exact .of_eq (by rw [h])
    · exact .of_eq (by rw [h, holdoverExpiry_stations])
  case setLinks =>
    rcases setLinksRule_state s ps with h | ⟨_, _, h⟩
    · exact .of_eq (by rw [h])
    · exact h ▸ withLinks_stations s _ _
  case quarantine =>
    rcases quarantineRule_state s ps with h | ⟨_, _, hst, h⟩
    · exact .of_eq (by rw [h])
    · exact h ▸ .putStation hst (.stopped _ nofun)
  case unquarantine =>
    rcases unquarantineRule_state s ps with h | ⟨_, _, hst, h⟩
    · exact .of_eq (by rw [h])
    · exact h ▸ .putStation hst (released_evolves _)
  case readStation => exact .of_eq (by rw [readStationRule_state])
  case readCounters =>
    rcases readCountersRule_state s ps with h | ⟨_, h⟩ | h | ⟨_, _, hst, h⟩ | h
    · exact .of_eq (by rw [h])
    · exact .of_eq (by rw [h, State.setTrunk_stations])
    · exact .of_eq (by rw [h])
    · exact h ▸ .putStation hst (clearCounters_evolves _)
    · exact .of_eq (by rw [h])
  case storeStart =>
    rcases storeStartRule_state s ps with h | ⟨-, h⟩
    · exact .of_eq (by rw [h])
    · exact .of_eq (by rw [h, (openFronts_emission _ _ _).stations])
  case storeStop =>
    rcases storeStopRule_state s ps with h | ⟨-, h⟩
    · exact .of_eq (by rw [h])
    · refine h ▸ .map (f := retirePrevious) ?_ retirePrevious_evolves
      simp [(dropRecords_emission s _).stations]
  case storeSuspend =>
    rcases storeSuspendRule_state s ps with h | ⟨-, h⟩ <;> exact .of_eq (by simp [h])
  case storeResume =>
    rcases storeResumeRule_state s ps with h | ⟨-, h | h⟩ <;> exact .of_eq (by simp [h])
  case restart => exact restartAll_stations s

/-- How a command that sets no station record leaves the station records. -/
theorem exec_stations {i : Instr} (hi : setsStations i = false) {s t : State} (h : exec i s = .next t) : StationsEvolve s t := by
  cases hd : directiveOf i with
  | some d =>
    rw [exec_directive hd, Host.Outcome.next.injEq] at h
    exact h ▸ Directive.run_keeps (I := StationsEvolve s) (fun _ _ _ hu => hu.comp (.of_eq rfl))
      (fun hw ps => hw.comp (rule_stations hd hi _ ps)) (fun hs => hs.comp (.of_eq (by simp))) (.of_eq rfl)
  | none =>
    cases i <;> simp only [directiveOf, reduceCtorEq] at hd
    case powerOnReset => exact nomatch hi
    case packetArrival => exact Host.Outcome.next.inj h ▸ .of_eq (by simp)
    case lossOfSignalIndication => exact Host.Outcome.next.inj h ▸ portDown_stations s _
    case linkLossTimerExpiry => exact Host.Outcome.next.inj h ▸ trunkExpiry_stations s _
    case arbiterTake =>
      rcases arbiterTake_cases h with rfl | ⟨p, bs, rest, -, -, rfl⟩
      · exact .of_eq rfl
      · exact (StationsEvolve.of_eq (by simp [State.take])).comp (handlePacket_stations _ p bs)
    case handOff =>
      rcases handOff_cases h with rfl | ⟨p, -, ⟨-, rfl⟩ | ⟨-, rfl⟩⟩
      · exact .of_eq rfl
      · exact (placeSamples_stations p _ _ _ s).comp (.of_eq rfl)
      · refine (StationsEvolve.modifyStation s p.slot fun a => .count ?_).comp (.of_eq rfl)
        simp only [forall_mem_stationCounters, bump_le, true_and]
        tauto
    case silenceTimerExpiry =>
      rcases silenceTimerExpiry_cases h with rfl | ⟨st, hst, rfl⟩
      · exact .of_eq rfl
      · exact (StationsEvolve.putStation hst (.stopped st (x := .silent) nofun)).comp (.of_eq (by simp))
    case timeMark =>
      rcases timeMark_cases h with rfl | ⟨-, rfl⟩
      · exact (StationsEvolve.of_eq (by simp)).comp (closeEvaluation_stations _)
      · exact .of_eq (by simp)
    case markTimerExpiry => rcases markTimerExpiry_cases h with rfl | rfl <;> exact .of_eq (by simp)
    case holdoverTimerExpiry => exact Host.Outcome.next.inj h ▸ .of_eq (holdoverExpiry_stations s)
    case withholdSuspension => exact Host.Outcome.next.inj h ▸ .of_eq (by simp)
    case closeTimeReached =>
      rcases closeTimeReached_cases h with rfl | rfl
      · exact .of_eq rfl
      · exact (StationsEvolve.of_eq (by simp)).comp (closeEvaluation_stations _)
    case stallTimerExpiry => exact Host.Outcome.next.inj h ▸ stallTimerExpiry_stations s
    case directivePacketArrival bs =>
      rcases directivePacketArrival_cases h with rfl | rfl | rfl
      · exact .of_eq rfl
      · exact .of_eq rfl
      · rcases offerInbound_cases { s with chain := s.routeForward bs } bs with ⟨-, h⟩ | h <;> exact .of_eq (by simp [h])
    case forwardComplete => rcases forwardComplete_cases h with rfl | ⟨_, rfl⟩ <;> exact .of_eq rfl
    case hold => rcases hold_cases h with rfl | rfl <;> exact .of_eq rfl
    case release => rcases release_cases h with rfl | rfl <;> exact .of_eq rfl
    case frameArrival | chainLossOfSignal => exact Host.Outcome.next.inj h ▸ .of_eq rfl
    case chainLinkLossTimerExpiry => exact Host.Outcome.next.inj h ▸ chainLinkExpiry_stations s
    case grant =>
      rcases grant_cases h with rfl | ⟨src, rfl⟩
      · exact .of_eq rfl
      · exact .of_eq (grantSource_stations s src)
    case fragmentCompletion =>
      rcases fragmentCompletion_cases h with rfl | rfl
      · exact .of_eq rfl
      · exact .of_eq (completeFragment_emission { s with transmitting := none }).stations
    case answerCompletion => rcases answerCompletion_cases h with rfl | rfl <;> exact .of_eq rfl
    case passThroughCompletion => rcases passThroughCompletion_cases h with rfl | ⟨_, rfl⟩ <;> exact .of_eq rfl
    case noticeCompletion => rcases noticeCompletion_cases h with rfl | rfl <;> exact .of_eq rfl
    case beginPacket =>
      rcases beginPacket_cases h with rfl | ⟨-, rfl | ⟨-, ⟨_, rfl⟩ | ⟨_, rfl⟩ | ⟨_, -, rfl⟩⟩⟩ <;> exact .of_eq rfl
    case unknown =>
      rcases unknown_cases h with rfl | ⟨p, e, rest, -, -, rfl⟩
      · exact .of_eq rfl
      · obtain ⟨_, _, _, heq⟩ := finishEntry_only s p e rest .unknown []
        exact .of_eq (by rw [heq])

end Sys2Proof.Machine
end

section
/-! The settings, the sample memory and NT_now through every command, the frame of TIME_MARK (R41, R45), and the station map with
the station records (R1). -/

namespace Sys2Proof.Machine

/-! ## What a command keeps of the settings, the memory and the clock -/

/-- What command `i` keeps, each item but by the commands that set it. -/
structure Kept (i : Instr) (s t : State) : Prop where
  pending     : t.pending = s.pending
  quantum     : t.quantum = s.quantum
  unitAddress : t.unitAddress = s.unitAddress
  memory      : i ≠ .handOff → t.memory = s.memory
  plan        : i ≠ .setPlan → t.plan = s.plan
  noticeMask  : i ≠ .setNoticeMask → t.noticeMask = s.noticeMask
  links       : i ≠ .setLinks → t.linkLossTime = s.linkLossTime ∧ t.stallLimit = s.stallLimit
  reference   : i ≠ .setReference → t.ref.lockWindow = s.ref.lockWindow ∧ t.ref.holdoverLimit = s.ref.holdoverLimit
  map         : i ≠ .mapStation → i ≠ .unmapStation → t.map = s.map
  clock       : (∀ m, i ≠ .timeMark m) → t.ref.ntNow = s.ref.ntNow

variable {i : Instr} {s t u : State}

theorem Kept.rfl' : Kept i s s := by constructor <;> intros <;> (first | exact ⟨rfl, rfl⟩ | rfl)

theorem Kept.comp (h : Kept i s t) (k : Kept i t u) : Kept i s u where
  pending := k.pending.trans h.pending
  quantum := k.quantum.trans h.quantum
  unitAddress := k.unitAddress.trans h.unitAddress
  memory := fun hi => (k.memory hi).trans (h.memory hi)
  plan := fun hi => (k.plan hi).trans (h.plan hi)
  noticeMask := fun hi => (k.noticeMask hi).trans (h.noticeMask hi)
  links := fun hi => ⟨(k.links hi).1.trans (h.links hi).1, (k.links hi).2.trans (h.links hi).2⟩
  reference := fun hi => ⟨(k.reference hi).1.trans (h.reference hi).1, (k.reference hi).2.trans (h.reference hi).2⟩
  map := fun hi hj => (k.map hi hj).trans (h.map hi hj)
  clock := fun hi => (k.clock hi).trans (h.clock hi)

theorem Kept.of_frame (h : StoreFrameMem s t) : Kept i s t where
  pending := h.pending
  quantum := h.quantum
  unitAddress := h.unitAddress
  memory := fun _ => h.memory
  plan := fun _ => h.plan
  noticeMask := fun _ => h.noticeMask
  links := fun _ => ⟨h.linkLossTime, h.stallLimit⟩
  reference := fun _ => by rw [h.ref]; exact ⟨rfl, rfl⟩
  map := fun _ _ => h.map
  clock := fun _ => by rw [h.ref]

/-- An operation that sets none of the items. -/
theorem Kept.of_eqs (pending : t.pending = s.pending) (quantum : t.quantum = s.quantum)
    (unitAddress : t.unitAddress = s.unitAddress) (memory : t.memory = s.memory) (plan : t.plan = s.plan)
    (noticeMask : t.noticeMask = s.noticeMask) (linkLossTime : t.linkLossTime = s.linkLossTime)
    (stallLimit : t.stallLimit = s.stallLimit) (ref : t.ref = s.ref) (map : t.map = s.map) : Kept i s t :=
  ⟨pending, quantum, unitAddress, fun _ => memory, fun _ => plan, fun _ => noticeMask, fun _ => ⟨linkLossTime, stallLimit⟩,
    fun _ => by rw [ref]; exact ⟨rfl, rfl⟩, fun _ _ => map, fun _ => by rw [ref]⟩

/-- The Reference Clock Unit set, with its settings kept and, outside TIME_MARK, its clock. -/
theorem Kept.setRef {r : RefClock} (hl : r.lockWindow = s.ref.lockWindow) (hh : r.holdoverLimit = s.ref.holdoverLimit)
    (hc : (∀ m, i ≠ .timeMark m) → r.ntNow = s.ref.ntNow) : Kept i s (s.setRef r) := by
  constructor
  case reference => exact fun _ => by rw [State.setRef_ref]; exact ⟨hl, hh⟩
  case clock => exact fun hi => by rw [State.setRef_ref]; exact hc hi
  all_goals simp

theorem RefClock.mark_limits (r : RefClock) (mark : Mark) :
    (r.mark mark).1.lockWindow = r.lockWindow ∧ (r.mark mark).1.holdoverLimit = r.holdoverLimit := by
  have acquired (m : Nat) : (r.acquireFrom m).lockWindow = r.lockWindow ∧ (r.acquireFrom m).holdoverLimit = r.holdoverLimit :=
    ⟨rfl, rfl⟩
  have rejected : r.reject.lockWindow = r.lockWindow ∧ r.reject.holdoverLimit = r.holdoverLimit := by
    unfold RefClock.reject
    simp only
    split <;> exact ⟨rfl, rfl⟩
  unfold RefClock.mark
  split
  case h_5 =>
    unfold RefClock.markLocked
    split
    · split
      · exact ⟨rfl, rfl⟩
      · exact rejected
    · exact rejected
  case h_6 =>
    rw [RefClock.markHoldover_eq]
    split
    · exact ⟨rfl, rfl⟩
    · exact acquired _
  case h_1 | h_8 => exact acquired _
  all_goals exact ⟨rfl, rfl⟩

theorem RefClock.loseMarks_kept (r : RefClock) :
    r.loseMarks.lockWindow = r.lockWindow ∧ r.loseMarks.holdoverLimit = r.holdoverLimit ∧ r.loseMarks.ntNow = r.ntNow := by
  unfold RefClock.loseMarks
  split <;> exact ⟨rfl, rfl, rfl⟩

theorem portDown_kept (s : State) (p : Port) : Kept i s (s.portDown p) := by
  have routed (u : State) : Kept i u u.routeLoss := by
    unfold State.routeLoss
    simp only
    split
    · apply Kept.of_eqs <;> simp
    · apply Kept.of_eqs <;> rfl
  unfold State.portDown
  split
  · refine Kept.comp (t := (s.setTrunk p { s.trunk p with link := .down, timer := none }).raise (trunkDownFlag p)) ?_ (routed _)
    apply Kept.of_eqs <;> simp
  · exact .rfl'

theorem trunkExpiry_kept (s : State) (p : Port) : Kept i s (s.trunkExpiry p) := by
  unfold State.trunkExpiry
  split
  · exact portDown_kept s p
  · exact .rfl'

theorem chainLinkExpiry_kept (s : State) : Kept i s s.chainLinkExpiry := by
  unfold State.chainLinkExpiry
  split
  · apply Kept.of_eqs <;> rfl
  · exact .rfl'

theorem stallTimerExpiry_kept (s : State) : Kept i s s.stallTimerExpiry := by
  rcases stallTimerExpiry_cases s with h | ⟨-, h⟩
  · rw [h]
    exact .rfl'
  · rw [h]
    exact (Kept.of_frame (stallExpiry_frame s)).comp (by apply Kept.of_eqs <;> rfl)

theorem holdoverExpiry_kept (s : State) : Kept i s s.holdoverExpiry := by
  rcases holdoverExpiry_cases s with h | ⟨-, h⟩
  · rw [h]
    exact .rfl'
  · have set : Kept i s (s.setRef { s.ref with state := .failed, holdoverTimer := none }) := .setRef rfl rfl fun _ => rfl
    have failed := set.comp (.of_frame (raise_frame _ .refFailed))
    rw [h]
    rcases signalFailure_cases ((s.setRef { s.ref with state := .failed, holdoverTimer := none }).raise .refFailed) with h | ⟨-, -, h⟩
    · rw [h]
      exact failed
    · rw [h]
      exact failed.comp (by apply Kept.of_eqs <;> rfl)

theorem withLinks_kept (s : State) (loss stall : Nat) : Kept .setLinks s (s.withLinks loss stall) := by
  have set : Kept .setLinks s { s with linkLossTime := loss, stallLimit := stall } :=
    ⟨rfl, rfl, rfl, fun _ => rfl, fun _ => rfl, fun _ => rfl, fun hi => absurd rfl hi, fun _ => ⟨rfl, rfl⟩, fun _ _ => rfl, fun _ => rfl⟩
  exact (((set.comp (trunkExpiry_kept _ .a)).comp (trunkExpiry_kept _ .b)).comp (chainLinkExpiry_kept _)).comp
    (stallTimerExpiry_kept _)

theorem setChannel_kept (s : State) (slot : Nat) (st : Station) (c : Fin 4) (rate : Nat) (word : SampleWord) (order : SampleOrder) :
    Kept i s (s.setChannel slot st c rate word order) := by
  have put (b : Station) : Kept i s (s.putStation slot b) := by apply Kept.of_eqs <;> rfl
  unfold State.setChannel
  simp only
  split
  · exact put _
  · exact (put _).comp (.of_frame (emptyChannel_frame _ _ _ _))

theorem unmap_kept (s : State) (slot : Nat) : Kept .unmapStation s (s.unmap slot) := by
  have removed : Kept .unmapStation s { s with map := mapRemove slot s.map, stations := assocErase s.stations slot } :=
    ⟨rfl, rfl, rfl, fun _ => rfl, fun _ => rfl, fun _ => rfl, fun _ => ⟨rfl, rfl⟩, fun _ => ⟨rfl, rfl⟩, fun _ hi => absurd rfl hi,
      fun _ => rfl⟩
  unfold State.unmap
  simp only
  split
  · exact removed
  · exact removed.comp (.of_frame (emptySlot_frame _ _))

theorem restartAll_kept (s : State) : Kept i s s.restartAll := by
  have dropped := dropRecords_frame s s.restartRecords
  exact .of_eqs dropped.pending dropped.quantum dropped.unitAddress dropped.memory dropped.plan dropped.noticeMask
    dropped.linkLossTime dropped.stallLimit dropped.ref dropped.map

theorem put_kept (s : State) (slot : Nat) (st : Station) : Kept i s (s.putStation slot st) := by apply Kept.of_eqs <;> rfl

theorem rule_kept {d : Directive} (hd : directiveOf i = some d) (s : State) (ps : List Byte) : Kept i s (d.rule s ps).state := by
  cases i <;> simp only [directiveOf, Option.some.injEq, reduceCtorEq] at hd <;> subst hd <;> dsimp only
  case identify | readStore | readFlags => exact .rfl'
  case readStation =>
    rw [readStationRule_state]
    exact .rfl'
  case clearFlags => apply Kept.of_eqs <;> rfl
  case setNoticeMask =>
    exact ⟨rfl, rfl, rfl, fun _ => rfl, fun _ => rfl, fun hi => absurd rfl hi, fun _ => ⟨rfl, rfl⟩, fun _ => ⟨rfl, rfl⟩,
      fun _ _ => rfl, fun _ => rfl⟩
  case setPlan =>
    rcases setPlanRule_state s ps with h | ⟨_, -, -, -, -, h⟩
    · rw [h]
      exact .rfl'
    · rw [h]
      exact ⟨rfl, rfl, rfl, fun _ => rfl, fun hi => absurd rfl hi, fun _ => rfl, fun _ => ⟨rfl, rfl⟩, fun _ => ⟨rfl, rfl⟩,
        fun _ _ => rfl, fun _ => rfl⟩
  case setReference =>
    rcases setReferenceRule_state s ps with h | ⟨wl, limit, -, h⟩
    · rw [h]
      exact .rfl'
    · have set : Kept .setReference s { s with ref := { s.ref with lockWindow := wl, holdoverLimit := limit } } :=
        ⟨rfl, rfl, rfl, fun _ => rfl, fun _ => rfl, fun _ => rfl, fun _ => ⟨rfl, rfl⟩, fun hi => absurd rfl hi,
          fun _ _ => rfl, fun _ => rfl⟩
      exact h ▸ set.comp (holdoverExpiry_kept _)
  case setLinks =>
    rcases setLinksRule_state s ps with h | ⟨_, _, h⟩
    · rw [h]
      exact .rfl'
    · rw [h]
      exact withLinks_kept s _ _
  case mapStation =>
    rcases mapStationRule_state s ps with h | ⟨_, _, _, -, -, -, -, h⟩
    · rw [h]
      exact .rfl'
    · rw [h]
      exact ⟨rfl, rfl, rfl, fun _ => rfl, fun _ => rfl, fun _ => rfl, fun _ => ⟨rfl, rfl⟩, fun _ => ⟨rfl, rfl⟩,
        fun hi => absurd rfl hi, fun _ => rfl⟩
  case unmapStation =>
    rcases unmapStationRule_state s ps with h | ⟨_, _, -, -, h⟩
    · rw [h]
      exact .rfl'
    · rw [h]
      exact unmap_kept s _
  case setChannel =>
    rcases setChannelRule_state s ps with h | ⟨_, _, _, _, _, _, -, -, h⟩
    · rw [h]
      exact .rfl'
    · rw [h]
      exact setChannel_kept s _ _ _ _ _ _
  case stageCorrection =>
    rcases stageCorrectionRule_state s ps with h | ⟨_, _, -, -, h⟩
    · rw [h]
      exact .rfl'
    · rw [h]
      exact put_kept s _ _
  case commitCorrection =>
    rcases commitCorrectionRule_state s ps with h | ⟨_, _, _, _, -, -, -, h⟩
    · rw [h]
      exact .rfl'
    · rw [h]
      exact put_kept s _ _
  case discardStaged =>
    rcases discardStagedRule_state s ps with h | ⟨_, _, -, h⟩
    · rw [h]
      exact .rfl'
    · rw [h]
      exact put_kept s _ _
  case quarantine =>
    rcases quarantineRule_state s ps with h | ⟨_, _, -, h⟩
    · rw [h]
      exact .rfl'
    · rw [h]
      exact put_kept s _ _
  case unquarantine =>
    rcases unquarantineRule_state s ps with h | ⟨_, _, -, h⟩
    · rw [h]
      exact .rfl'
    · rw [h]
      exact put_kept s _ _
  case readCounters =>
    rcases readCountersRule_state s ps with h | ⟨_, h⟩ | h | ⟨_, _, -, h⟩ | h
    · rw [h]
      exact .rfl'
    · rw [h]
      apply Kept.of_eqs <;> simp
    · rw [h]
      apply Kept.of_eqs <;> rfl
    · rw [h]
      exact put_kept s _ _
    · rw [h]
      apply Kept.of_eqs <;> rfl
  case storeStart =>
    rcases storeStartRule_state s ps with h | ⟨-, h⟩
    · rw [h]
      exact .rfl'
    · have started : Kept .storeStart s { s with store := .ready, eLo := some s.startEpoch } := by apply Kept.of_eqs <;> rfl
      exact h ▸ started.comp (.of_frame (openFronts_frame _ _ _))
  case storeStop =>
    rcases storeStopRule_state s ps with h | ⟨-, h⟩
    · rw [h]
      exact .rfl'
    · rw [h]
      exact (Kept.of_frame (dropRecords_frame s _)).comp (by apply Kept.of_eqs <;> rfl)
  case storeSuspend =>
    rcases storeSuspendRule_state s ps with h | ⟨-, h⟩
    · rw [h]
      exact .rfl'
    · rw [h]
      apply Kept.of_eqs <;> rfl
  case storeResume =>
    rcases storeResumeRule_state s ps with h | ⟨-, h | h⟩
    · rw [h]
      exact .rfl'
    · rw [h]
      apply Kept.of_eqs <;> rfl
    · rw [h]
      apply Kept.of_eqs <;> simp
  case restart => exact restartAll_kept s

theorem handlePacket_kept (s : State) (p : Port) (bs : List Byte) : Kept i s (s.handlePacket p bs) := by
  rcases handlePacket_cases s p bs with h | h | ⟨slot, a, b, -, -, h | ⟨q, -, -, h⟩⟩
  · rw [h]
    apply Kept.of_eqs <;> simp
  · rw [h]
    exact .rfl'
  · rw [h]
    exact put_kept s _ _
  · rw [h]
    apply Kept.of_eqs <;> rfl

theorem grantSource_kept (s : State) (src : TxSource) : Kept i s (s.grantSource src) := by
  rcases grantSource_cases s src with ⟨_, _, _, h⟩ | h
  · rw [h]
    apply Kept.of_eqs <;> rfl
  · rw [h]
    rcases grantOwn_cases s with h | ⟨_, _, _, _, _, -, -, -, -, h⟩ | ⟨_, _, -, h⟩ <;> rw [h] <;> apply Kept.of_eqs <;> rfl

/-- What every command but POWER_ON_RESET keeps. -/
theorem exec_kept (hi : ∀ straps, i ≠ .powerOnReset straps) (h : exec i s = .next t) : Kept i s t := by
  cases hd : directiveOf i with
  | some d =>
    rw [exec_directive hd, Host.Outcome.next.injEq] at h
    exact h ▸ Directive.run_keeps (I := Kept i s) (fun _ _ _ hu => hu.comp (by apply Kept.of_eqs <;> rfl))
      (fun hw ps => hw.comp (rule_kept hd _ ps)) (fun hs => hs.comp (.of_frame (withhold_frame s))) .rfl'
  | none =>
    cases i <;> simp only [directiveOf, reduceCtorEq] at hd
    case powerOnReset straps => exact absurd rfl (hi straps)
    case packetArrival => exact Host.Outcome.next.inj h ▸ (by apply Kept.of_eqs <;> simp)
    case lossOfSignalIndication => exact Host.Outcome.next.inj h ▸ portDown_kept s _
    case linkLossTimerExpiry => exact Host.Outcome.next.inj h ▸ trunkExpiry_kept s _
    case arbiterTake =>
      rcases arbiterTake_cases h with rfl | ⟨p, bs, rest, -, -, rfl⟩
      · exact .rfl'
      · have taken : Kept .arbiterTake s (s.take p) := by apply Kept.of_eqs <;> simp [State.take]
        exact taken.comp (handlePacket_kept _ p bs)
    case handOff =>
      rcases handOff_cases h with rfl | ⟨p, -, ⟨-, rfl⟩ | ⟨-, rfl⟩⟩
      · exact .rfl'
      · have placed : StoreFrame s (s.place p) := placeSamples_frame p _ _ _ s
        exact ⟨placed.pending, placed.quantum, placed.unitAddress, fun hi => absurd rfl hi, fun _ => placed.plan,
          fun _ => placed.noticeMask, fun _ => ⟨placed.linkLossTime, placed.stallLimit⟩,
          fun _ => by rw [placed.ref]; exact ⟨rfl, rfl⟩, fun _ _ => placed.map, fun _ => by rw [placed.ref]⟩
      · exact (Kept.of_frame (modifyStation_frame s _ _)).comp (by apply Kept.of_eqs <;> rfl)
    case silenceTimerExpiry =>
      rcases silenceTimerExpiry_cases h with rfl | ⟨st, -, rfl⟩
      · exact .rfl'
      · exact (put_kept s _ _).comp (.of_frame (raise_frame _ _))
    case timeMark mark =>
      have clock : (∀ m, Instr.timeMark mark ≠ .timeMark m) → (s.ref.mark mark).1.ntNow = s.ref.ntNow :=
        fun hi => absurd rfl (hi mark)
      obtain ⟨hl, hh⟩ := s.ref.mark_limits mark
      rcases timeMark_cases h with rfl | ⟨-, rfl⟩
      · refine ((Kept.of_frame (withhold_frame s)).comp ?_).comp (.of_frame (closeEvaluation_frame _))
        exact .setRef (by rwa [State.withhold_ref]) (by rwa [State.withhold_ref]) (by simp)
      · exact .setRef hl hh clock
    case markTimerExpiry =>
      obtain ⟨hl, hh, hc⟩ := s.ref.loseMarks_kept
      rcases markTimerExpiry_cases h with rfl | rfl
      · exact .rfl'
      · exact .setRef hl hh fun _ => hc
    case holdoverTimerExpiry => exact Host.Outcome.next.inj h ▸ holdoverExpiry_kept s
    case withholdSuspension => exact Host.Outcome.next.inj h ▸ .of_frame (withhold_frame s)
    case closeTimeReached =>
      rcases closeTimeReached_cases h with rfl | rfl
      · exact .rfl'
      · exact .of_frame ((withhold_frame s).comp (closeEvaluation_frame _))
    case stallTimerExpiry => exact Host.Outcome.next.inj h ▸ stallTimerExpiry_kept s
    case directivePacketArrival bs =>
      have routed : Kept (.directivePacketArrival bs) s { s with chain := s.routeForward bs } := by apply Kept.of_eqs <;> rfl
      rcases directivePacketArrival_cases h with rfl | rfl | rfl
      · apply Kept.of_eqs <;> rfl
      · exact routed
      · refine routed.comp ?_
        rcases offerInbound_cases { s with chain := s.routeForward bs } bs with ⟨-, h⟩ | h <;>
          exact h ▸ (by apply Kept.of_eqs <;> simp)
    case forwardComplete =>
      rcases forwardComplete_cases h with rfl | ⟨_, rfl⟩
      · exact .rfl'
      · apply Kept.of_eqs <;> rfl
    case hold => rcases hold_cases h with rfl | rfl <;> apply Kept.of_eqs <;> rfl
    case release => rcases release_cases h with rfl | rfl <;> apply Kept.of_eqs <;> rfl
    case frameArrival | chainLossOfSignal => exact Host.Outcome.next.inj h ▸ (by apply Kept.of_eqs <;> rfl)
    case chainLinkLossTimerExpiry => exact Host.Outcome.next.inj h ▸ chainLinkExpiry_kept s
    case grant =>
      rcases grant_cases h with rfl | ⟨src, rfl⟩
      · exact .rfl'
      · exact grantSource_kept s src
    case fragmentCompletion =>
      rcases fragmentCompletion_cases h with rfl | rfl
      · exact .rfl'
      · have ended : Kept .fragmentCompletion s { s with transmitting := none } := by apply Kept.of_eqs <;> rfl
        exact ended.comp (.of_frame (completeFragment_frame _))
    case answerCompletion => rcases answerCompletion_cases h with rfl | rfl <;> apply Kept.of_eqs <;> rfl
    case passThroughCompletion => rcases passThroughCompletion_cases h with rfl | ⟨_, rfl⟩ <;> apply Kept.of_eqs <;> rfl
    case noticeCompletion => rcases noticeCompletion_cases h with rfl | rfl <;> apply Kept.of_eqs <;> rfl
    case beginPacket =>
      rcases beginPacket_cases h with rfl | ⟨-, rfl | ⟨-, ⟨_, rfl⟩ | ⟨_, rfl⟩ | ⟨_, -, rfl⟩⟩⟩ <;> apply Kept.of_eqs <;> rfl
    case unknown =>
      rcases unknown_cases h with rfl | ⟨p, e, rest, -, -, rfl⟩
      · exact .rfl'
      · obtain ⟨_, _, _, heq⟩ := finishEntry_only s p e rest .unknown []
        exact heq ▸ (by apply Kept.of_eqs <;> rfl)

/-! ## What the close evaluation leaves (R81) -/

/-- All but the window, the records, the closed-epoch queue, the station records and the flags is as it was. -/
def WindowOnly (s t : State) : Prop :=
  ∃ eLo closedQueue pendingSkip records stations flags noticeSlot, t =
    { s with
      eLo := eLo, closedQueue := closedQueue, pendingSkip := pendingSkip, records := records, stations := stations, flags := flags
      noticeSlot := noticeSlot }

theorem WindowOnly.rfl' : WindowOnly s s := ⟨s.eLo, s.closedQueue, s.pendingSkip, s.records, s.stations, s.flags, s.noticeSlot, rfl⟩

theorem WindowOnly.comp (h : WindowOnly s t) (k : WindowOnly t u) : WindowOnly s u := by
  obtain ⟨_, _, _, _, _, _, _, rfl⟩ := h
  obtain ⟨_, _, _, _, _, _, _, rfl⟩ := k
  exact ⟨_, _, _, _, _, _, _, rfl⟩

theorem raise_windowOnly (s : State) (f : EventFlag) : WindowOnly s (s.raise f) := by
  obtain ⟨_, _, h, -⟩ := raise_only s f
  exact ⟨s.eLo, s.closedQueue, s.pendingSkip, s.records, s.stations, _, _, h⟩

theorem closeRecord_windowOnly (s : State) (j : Nat) : WindowOnly s (s.closeRecord j) := by
  unfold State.closeRecord
  split
  · exact ⟨_, _, _, _, _, s.flags, s.noticeSlot, rfl⟩
  · exact .rfl'

theorem WindowOnly.foldl {α : Type} {f : State → α → State} (h : ∀ s a, WindowOnly s (f s a)) (l : List α) (s : State) :
    WindowOnly s (l.foldl f s) := by
  induction l generalizing s with
  | nil => exact .rfl'
  | cons a t ih => exact (h s a).comp (ih (f s a))

theorem closeDue_windowOnly (s : State) : WindowOnly s s.closeDue :=
  .foldl (fun s (p : Nat × EpochRecord) => closeRecord_windowOnly s p.1) _ s

theorem skipTo_windowOnly (s : State) (first : Nat) : WindowOnly s (s.skipTo first) := by
  unfold State.skipTo
  split
  · split
    next lo _ _ =>
      obtain ⟨flags, notice, h, -⟩ := raise_only s .skippedEpochs
      rw [h]
      exact ⟨_, s.closedQueue, _, s.records, _, flags, notice, rfl⟩
    · exact .rfl'
  · exact .rfl'

theorem openFronts_windowOnly (lo k : Nat) (s : State) : WindowOnly s (openFronts lo k s) := by
  induction k generalizing s with
  | zero => exact .rfl'
  | succ k ih =>
    unfold openFronts
    split
    · split
      · exact WindowOnly.comp ⟨s.eLo, s.closedQueue, s.pendingSkip, _, s.stations, s.flags, s.noticeSlot, rfl⟩ (ih _)
      · exact raise_windowOnly s _
    · exact .rfl'

theorem openWindow_windowOnly (s : State) : WindowOnly s s.openWindow := by
  unfold State.openWindow
  split
  · exact openFronts_windowOnly _ _ s
  · exact .rfl'

theorem closeEvaluation_windowOnly (s : State) : WindowOnly s s.closeEvaluation := by
  unfold State.closeEvaluation
  split
  · exact .rfl'
  · exact ((closeDue_windowOnly s).comp (skipTo_windowOnly _ _)).comp (openWindow_windowOnly _)

/-- The station records are as they were but for previous records. -/
def SameButPrevious (s t : State) : Prop :=
  ∀ slot, (t.station slot).map retirePrevious = (s.station slot).map retirePrevious

theorem SameButPrevious.of_eq (h : t.stations = s.stations) : SameButPrevious s t := fun slot => by
  simp only [State.station, h]

theorem SameButPrevious.comp (h : SameButPrevious s t) (k : SameButPrevious t u) : SameButPrevious s u :=
  fun slot => (k slot).trans (h slot)

theorem retirePrevious_retireBelow (lo : Nat) (st : Station) : retirePrevious (retireBelow lo st) = retirePrevious st := by
  unfold retireBelow
  split
  · split <;> rfl
  · rfl

theorem SameButPrevious.retired {lo : Nat} (h : t.stations = assocMap (retireBelow lo) s.stations) : SameButPrevious s t :=
  fun slot => by
    simp only [State.station, h, assocGet_map, Option.map_map]
    exact congrArg (Option.map · _) (funext (retirePrevious_retireBelow lo))

theorem closeRecord_sameButPrevious (s : State) (j : Nat) : SameButPrevious s (s.closeRecord j) := by
  unfold State.closeRecord
  split
  · exact .retired rfl
  · exact .of_eq rfl

theorem closeEvaluation_sameButPrevious (s : State) : SameButPrevious s s.closeEvaluation := by
  have closed (l : List (Nat × EpochRecord)) (s : State) : SameButPrevious s (l.foldl (fun s p => s.closeRecord p.1) s) := by
    induction l generalizing s with
    | nil => exact .of_eq rfl
    | cons p t ih => exact (closeRecord_sameButPrevious s p.1).comp (ih _)
  have skipped (first : Nat) (s : State) : SameButPrevious s (s.skipTo first) := by
    unfold State.skipTo
    split
    · split
      · exact .retired (lo := first) (by simp)
      · exact .of_eq rfl
    · exact .of_eq rfl
  unfold State.closeEvaluation
  split
  · exact .of_eq rfl
  · exact ((closed _ s).comp (skipped _ _)).comp (.of_eq (openWindow_emission _).stations)

/-! ## The frames of the commands and of TIME_MARK -/

/-- What TIME_MARK leaves of everything but the Reference Clock Unit, the window and the flags (R41, R45). -/
structure MarkFrame (s t : State) : Prop extends StoreFrameMem { s with ref := t.ref } t where
  freePages : t.freePages = s.freePages
  emitter   : t.emitter = s.emitter
  globals   : t.globals = s.globals
  stations  : SameButPrevious s t

theorem setRef_markFrame (s : State) (r : RefClock) : MarkFrame s (s.setRef r) := by
  refine ⟨⟨?_, ?_⟩, ?_, ?_, ?_, .of_eq ?_⟩
  case refine_1 => constructor <;> simp
  all_goals simp

theorem MarkFrame.closed (h : MarkFrame s t) : MarkFrame s t.closeEvaluation := by
  have frame := closeEvaluation_frame t
  have same := closeEvaluation_sameButPrevious t
  obtain ⟨_, _, _, _, _, _, _, heq⟩ := closeEvaluation_windowOnly t
  refine ⟨?_, ?_, ?_, ?_, h.stations.comp same⟩
  · have before := h.toStoreFrameMem
    rw [← frame.ref] at before
    exact before.comp frame
  · rw [heq]
    exact h.freePages
  · rw [heq]
    exact h.emitter
  · rw [heq]
    exact h.globals

/-- Settles O50: each command's frame is `exec_kept`; a mark sets the Reference Clock Unit, and a step delivers the close evaluation. -/
theorem commandsKeepWhatTheyDoNotSet : Obligations.CommandsKeepWhatTheyDoNotSet := by
  refine ⟨fun c s t h => ?commands, fun s mark => ?mark⟩
  case commands =>
    by_cases hc : ∃ straps, c = .powerOnReset straps
    · obtain ⟨straps, rfl⟩ := hc
      exact Host.Outcome.next.inj h ▸ ⟨rfl, rfl, fun hne => absurd rfl (hne straps)⟩
    · have kept := exec_kept (fun straps heq => hc ⟨straps, heq⟩) h
      exact ⟨kept.pending, kept.quantum, fun _ => ⟨kept.unitAddress, kept.memory, kept.plan, kept.noticeMask, kept.links,
        kept.reference, kept.map, kept.clock⟩⟩
  case mark =>
    obtain ⟨t, ht⟩ := exec_next (.timeMark mark) s
    have kept := exec_kept (by simp) ht
    obtain ⟨hl, hh⟩ := kept.reference (by simp)
    have frame : MarkFrame s t ∧ (s.failureSignal = false → t.store = s.store) := by
      rcases timeMark_cases ht with rfl | ⟨-, rfl⟩
      · have stepped : MarkFrame s (s.withhold.setRef (s.ref.mark mark).1) := by
          refine ⟨⟨?_, ?_⟩, ?_, ?_, ?_, .of_eq ?_⟩
          case refine_1 => constructor <;> simp
          all_goals simp
        refine ⟨stepped.closed, fun hs => ?_⟩
        obtain ⟨_, _, _, _, _, _, _, heq⟩ := closeEvaluation_windowOnly (s.withhold.setRef (s.ref.mark mark).1)
        rw [heq]
        simp [withhold_of_settled hs]
      · exact ⟨setRef_markFrame s _, fun _ => by simp⟩
    obtain ⟨frame, store⟩ := frame
    exact ⟨t, ht, frame.portA, frame.portB, frame.chain, frame.stallTimer, frame.stations, fun a => by rw [frame.memory],
      frame.freePages, frame.inHand, frame.map, frame.plan, store, frame.hold, frame.emitter, frame.transmitting,
      frame.answerQueue, frame.inbound, frame.agent, frame.noticeMask, frame.globals, hl, hh⟩

/-! ## The station map and the station records (R1) -/

theorem MapInv.evolve (h : MapInv s) (hmap : t.map = s.map) (hst : StationsEvolve s t) : MapInv t where
  ascending := hmap ▸ h.ascending
  atMost := hmap ▸ h.atMost
  codes := hmap ▸ h.codes
  distinct := hmap ▸ h.distinct
  named := fun e he => by
    obtain ⟨a, ha, hcode⟩ := h.named e (hmap ▸ he)
    have found := hst.looked e.slot
    rw [ha] at found
    generalize t.station e.slot = x at found ⊢
    cases found with
    | some hab => exact ⟨_, rfl, hab.code.trans hcode⟩
  listed := fun slot b hb => by
    have found := hst.looked slot
    rw [hb] at found
    generalize hx : s.station slot = x at found
    cases found with
    | some hab =>
      obtain ⟨e, he, hslot, hcode⟩ := h.listed slot _ hx
      exact ⟨e, hmap ▸ he, hslot, hcode.trans hab.code.symm⟩

end Sys2Proof.Machine
end

section
/-! Power-on reset: the values it sets (R23, R43, R74, R93) and the invariants, which hold right after it. -/

namespace Sys2Proof.Machine

/-- The part after power-on reset with given straps; the queue of commands, the quantum and the tie count stay (logs 2 to 4). -/
def State.poweredOn (s : State) (straps : BitVec 4) : State :=
  { State.reset with pending := s.pending, quantum := s.quantum, ties := s.ties, unitAddress := straps }

theorem exec_powerOnReset (straps : BitVec 4) (s : State) : exec (.powerOnReset straps) s = .next (s.poweredOn straps) := rfl

theorem pagesFrom_eq (count first : Nat) : pagesFrom count first = (List.range' first count).map (BitVec.ofNat 14) := by
  induction count generalizing first with
  | zero => rfl
  | succ k ih => rw [pagesFrom, ih, List.range'_succ, List.map_cons]

/-- Settles O3. -/
theorem powerOnResetValues : Obligations.PowerOnResetValues := by
  intro straps s
  refine ⟨s.poweredOn straps, exec_powerOnReset straps s, rfl, rfl, rfl, rfl, fun p => ?_, ?_⟩
  · cases p <;> exact ⟨rfl, rfl, rfl, rfl, rfl, rfl, rfl, rfl⟩
  · have pages : (s.poweredOn straps).freePages = (List.range 16384).map (BitVec.ofNat 14) := by
      rw [List.range_eq_range', ← pagesFrom_eq]
      rfl
    have chain : ∀ c ∈ ChainPort.reset.counterList, c = 0 := by decide
    have globals : ∀ c ∈ GlobalCounters.reset.counterList, c = 0 := by decide
    exact ⟨rfl, rfl, rfl, rfl, fun _ => rfl, rfl, rfl, rfl, rfl, rfl, rfl, rfl, rfl, rfl, rfl, rfl, rfl, rfl, rfl, rfl, rfl, rfl, rfl,
      pages, rfl, rfl, rfl, rfl, rfl, rfl, rfl, rfl, rfl, rfl, rfl, rfl, rfl, rfl, rfl, chain, rfl, rfl, rfl, rfl, globals⟩

/-! ## The invariants -/

section
variable (s : State) (straps : BitVec 4)

@[simp] theorem poweredOn_map : (s.poweredOn straps).map = [] := rfl
@[simp] theorem poweredOn_stations : (s.poweredOn straps).stations = [] := rfl
@[simp] theorem poweredOn_station (slot : Nat) : (s.poweredOn straps).station slot = none := rfl
@[simp] theorem poweredOn_records : (s.poweredOn straps).records = [] := rfl
@[simp] theorem poweredOn_closedQueue : (s.poweredOn straps).closedQueue = [] := rfl
@[simp] theorem poweredOn_emitter : (s.poweredOn straps).emitter = .idle := rfl
@[simp] theorem poweredOn_inHand : (s.poweredOn straps).inHand = none := rfl
@[simp] theorem poweredOn_agent : (s.poweredOn straps).agent = .idle := rfl
@[simp] theorem poweredOn_store : (s.poweredOn straps).store = .idle := rfl
@[simp] theorem poweredOn_eLo : (s.poweredOn straps).eLo = none := rfl
@[simp] theorem poweredOn_failureSignal : (s.poweredOn straps).failureSignal = false := rfl
@[simp] theorem poweredOn_hold : (s.poweredOn straps).hold = .notHeld := rfl
@[simp] theorem poweredOn_stallTimer : (s.poweredOn straps).stallTimer = none := rfl
@[simp] theorem poweredOn_ref : (s.poweredOn straps).ref = RefClock.reset := rfl
@[simp] theorem poweredOn_portA : (s.poweredOn straps).portA = TrunkPort.reset := rfl
@[simp] theorem poweredOn_portB : (s.poweredOn straps).portB = TrunkPort.reset := rfl
@[simp] theorem poweredOn_chain : (s.poweredOn straps).chain = ChainPort.reset := rfl
@[simp] theorem poweredOn_plan : (s.poweredOn straps).plan = Plan.reset := rfl
@[simp] theorem poweredOn_globals : (s.poweredOn straps).globals = GlobalCounters.reset := rfl
@[simp] theorem poweredOn_freePages : (s.poweredOn straps).freePages = pagesFrom Config.pages 0 := rfl
@[simp] theorem poweredOn_inbound : (s.poweredOn straps).inbound = [] := rfl
@[simp] theorem poweredOn_answerQueue : (s.poweredOn straps).answerQueue = [] := rfl

theorem mapInv_poweredOn : MapInv (s.poweredOn straps) := by constructor <;> simp

theorem capacityInv_poweredOn : CapacityInv (s.poweredOn straps) := by
  constructor <;> simp [TrunkPort.reset, ChainPort.reset, AgentState.progress]

theorem counterInv_poweredOn : CounterInv (s.poweredOn straps) where
  portA := show ∀ c ∈ TrunkPort.reset.counterList, c ≤ counterMax by decide
  portB := show ∀ c ∈ TrunkPort.reset.counterList, c ≤ counterMax by decide
  chain := show ∀ c ∈ ChainPort.reset.counterList, c ≤ counterMax by decide
  globals := show ∀ c ∈ GlobalCounters.reset.counterList, c ≤ counterMax by decide
  stations := by simp

theorem timerInv_poweredOn : TimerInv (s.poweredOn straps) := by
  constructor <;> simp [timerWithin, TrunkPort.reset, ChainPort.reset, RefClock.reset]

theorem refInv_poweredOn : RefInv (s.poweredOn straps) := by constructor <;> simp [RefClock.reset]

theorem correctionInv_poweredOn : CorrectionInv (s.poweredOn straps) := by constructor <;> simp

theorem planInv_poweredOn : PlanInv (s.poweredOn straps) where
  range := show planInRange 1000 4 2000 = true by decide
  depth := show (2000 + 1000 - 1) / 1000 + 2 ≤ 4 by decide
  fits := by simp

theorem storeInv_poweredOn : StoreInv (s.poweredOn straps) := by
  constructor
  case plan => exact (planInv_poweredOn s straps).range
  all_goals simp [assocSorted, State.openCount, State.countRecords, State.queuedEpochs, Emitter.emission]

theorem pageInv_poweredOn : PageInv (s.poweredOn straps) := by
  constructor <;> simp [assocSorted, State.namedPages]

theorem segmentInv_poweredOn : SegmentInv (s.poweredOn straps) := by constructor <;> simp

end

/-- Settles O60. -/
theorem invariantsAtReset : Obligations.InvariantsAtReset :=
  ⟨mapInv_poweredOn .reset 0, capacityInv_poweredOn .reset 0, counterInv_poweredOn .reset 0, memory_wf_reset,
    timerInv_poweredOn .reset 0, refInv_poweredOn .reset 0, correctionInv_poweredOn .reset 0, planInv_poweredOn .reset 0,
    storeInv_poweredOn .reset 0, pageInv_poweredOn .reset 0, segmentInv_poweredOn .reset 0⟩

end Sys2Proof.Machine
end

section
/-! The station map and the station records name each other one to one (R1). -/

namespace Sys2Proof.Machine

variable {s t : State}

theorem mapInsert_perm (e : MapEntry) (m : List MapEntry) : (mapInsert e m).Perm (e :: m) := by
  induction m with
  | nil => exact .refl _
  | cons x t ih =>
    unfold mapInsert
    split
    · exact .refl _
    · exact (ih.cons x).trans (.swap e x t)

/-- What the map invariant needs of the station records: which slots are mapped, and to which codes. -/
theorem MapInv.of_codes (h : MapInv s) (hmap : t.map = s.map)
    (hcode : ∀ slot, (t.station slot).map Station.code = (s.station slot).map Station.code) : MapInv t where
  ascending := hmap ▸ h.ascending
  atMost := hmap ▸ h.atMost
  codes := hmap ▸ h.codes
  distinct := hmap ▸ h.distinct
  named := fun e he => by
    obtain ⟨a, ha, hcodea⟩ := h.named e (hmap ▸ he)
    have found := hcode e.slot
    rw [ha] at found
    obtain ⟨b, hb, heq⟩ := Option.map_eq_some_iff.1 found
    exact ⟨b, hb, heq.trans hcodea⟩
  listed := fun slot b hb => by
    have found := hcode slot
    rw [hb] at found
    obtain ⟨a, ha, heq⟩ := Option.map_eq_some_iff.1 found.symm
    obtain ⟨e, he, hslot, hcodee⟩ := h.listed slot a ha
    exact ⟨e, hmap ▸ he, hslot, hcodee.trans heq⟩

theorem MapInv.put (h : MapInv s) {slot : Nat} {a b : Station} (ha : s.station slot = some a) (hcode : b.code = a.code) :
    MapInv (s.putStation slot b) :=
  h.of_codes rfl fun k => by
    rw [station_putStation]
    split
    next hk => rw [hk, ha, Option.map_some, Option.map_some, hcode]
    next => rfl

/-- A new code mapped to a Vacant slot (R3, R4). -/
theorem MapInv.insert (h : MapInv s) {e : MapEntry} {b : Station} (hnew : mapHas s.map e.code = false)
    (hroom : s.map.length < 192) (hvacant : s.station e.slot = none) (hcode : e.code < 65536) (hslot : e.slot ≤ 191)
    (hb : b.code = e.code) : MapInv (({ s with map := mapInsert e s.map } : State).putStation e.slot b) := by
  have vacant (x : MapEntry) (hx : x ∈ s.map) : x.slot ≠ e.slot := fun heq => by
    obtain ⟨st, hst, -⟩ := h.named x hx
    rw [heq, hvacant] at hst
    cases hst
  have looked (k : Nat) : (({ s with map := mapInsert e s.map } : State).putStation e.slot b).station k =
      if k = e.slot then some b else s.station k := station_putStation _ _ _ _
  constructor
  case ascending =>
    refine mapInsert_ascending h.ascending fun x hx heq => ?_
    rw [Bool.eq_false_iff, Ne, mapHas_iff] at hnew
    exact hnew ⟨x, hx, heq⟩
  case atMost =>
    have grown : (mapInsert e s.map).length = s.map.length + 1 := (mapInsert_perm e s.map).length_eq
    exact grown ▸ hroom
  case codes =>
    intro x hx
    rcases (mem_mapInsert e x s.map).1 hx with rfl | hx
    · exact ⟨hcode, Nat.lt_succ_of_le hslot⟩
    · exact h.codes x hx
  case named =>
    intro x hx
    rw [looked]
    rcases (mem_mapInsert e x s.map).1 hx with rfl | hx
    · exact ⟨b, if_pos rfl, hb⟩
    · rw [if_neg (vacant x hx)]
      exact h.named x hx
  case distinct =>
    refine ((mapInsert_perm e s.map).pairwise_iff fun hxy => Ne.symm hxy).2 (List.pairwise_cons.2 ⟨fun x hx => ?_, h.distinct⟩)
    exact (vacant x hx).symm
  case listed =>
    intro k st hst
    rw [looked] at hst
    split at hst
    next hk =>
      cases hst
      exact ⟨e, (mem_mapInsert e e s.map).2 (.inl rfl), hk.symm, hb.symm⟩
    next =>
      obtain ⟨x, hx, hxslot, hxcode⟩ := h.listed k st hst
      exact ⟨x, (mem_mapInsert e x s.map).2 (.inr hx), hxslot, hxcode⟩

/-- A slot made Vacant with its entry removed (R5). -/
theorem MapInv.remove (h : MapInv s) (slot : Nat) :
    MapInv { s with map := mapRemove slot s.map, stations := assocErase s.stations slot } := by
  have sub : (mapRemove slot s.map).Sublist s.map := List.filter_sublist
  have mem (x : MapEntry) : x ∈ mapRemove slot s.map ↔ x ∈ s.map ∧ x.slot ≠ slot := by simp [mapRemove]
  have looked (k : Nat) : ({ s with map := mapRemove slot s.map, stations := assocErase s.stations slot } : State).station k =
      if k = slot then none else s.station k := assocGet_erase _ _ _
  constructor
  case ascending => exact h.ascending.sublist sub
  case atMost => exact sub.length_le.trans h.atMost
  case codes => exact fun x hx => h.codes x (sub.subset hx)
  case distinct => exact h.distinct.sublist sub
  case named =>
    intro x hx
    obtain ⟨hin, hother⟩ := (mem x).1 hx
    rw [looked, if_neg hother]
    exact h.named x hin
  case listed =>
    intro k st hst
    rw [looked] at hst
    split at hst
    · cases hst
    next hk =>
      obtain ⟨x, hx, hxslot, hxcode⟩ := h.listed k st hst
      exact ⟨x, (mem x).2 ⟨hx, fun heq => hk (hxslot.symm.trans heq)⟩, hxslot, hxcode⟩

theorem MapInv.ofFrame (h : MapInv s) (frame : EmissionFrame s t) : MapInv t :=
  h.of_codes frame.map fun slot => by rw [State.station, State.station, frame.stations]

theorem MapInv.rule (h : MapInv s) {i : Instr} {d : Directive} (hd : directiveOf i = some d) (ps : List Byte) :
    MapInv (d.rule s ps).state := by
  have quiet (hi : setsStations i = false) : MapInv (d.rule s ps).state := by
    refine h.evolve ((rule_kept hd s ps).map ?_ ?_) (rule_stations hd hi s ps) <;> rintro rfl <;> exact nomatch hi
  cases i <;> try exact quiet rfl
  all_goals simp only [directiveOf, Option.some.injEq, reduceCtorEq] at hd
  all_goals subst hd; dsimp only
  case mapStation =>
    rcases mapStationRule_state s ps with heq | ⟨slot, mask, limit, hslot, hnew, hroom, hvacant, heq⟩
    · rwa [heq]
    · rw [heq]
      exact h.insert (e := ⟨_, slot⟩) hnew hroom hvacant (fieldAt_lt ps 0 2) hslot rfl
  case unmapStation =>
    rcases unmapStationRule_state s ps with heq | ⟨slot, st, -, -, heq⟩
    · rwa [heq]
    · rw [heq]
      by_cases hidle : s.store = .idle
      · exact unmap_of_idle hidle slot ▸ h.remove slot
      · exact unmap_of_running hidle slot ▸ (h.remove slot).ofFrame (emptyOpen_emission _ _ _ _)
  case setChannel =>
    rcases setChannelRule_state s ps with heq | ⟨slot, st, c, rate, word, order, hst, -, heq⟩
    · rwa [heq]
    · rw [heq]
      unfold State.setChannel
      simp only
      split
      · exact h.put hst rfl
      · refine MapInv.ofFrame ?_ (emptyOpen_emission _ _ [c] _)
        exact h.put hst rfl
  case stageCorrection =>
    rcases stageCorrectionRule_state s ps with heq | ⟨slot, st, hst, -, heq⟩
    · rwa [heq]
    · exact heq ▸ h.put hst rfl
  case commitCorrection =>
    rcases commitCorrectionRule_state s ps with heq | ⟨slot, st, staged, eSw, hst, -, -, heq⟩
    · rwa [heq]
    · exact heq ▸ h.put hst rfl
  case discardStaged =>
    rcases discardStagedRule_state s ps with heq | ⟨slot, st, hst, heq⟩
    · rwa [heq]
    · exact heq ▸ h.put hst rfl

theorem MapInv.exec {i : Instr} (h : exec i s = .next t) (hs : MapInv s) : MapInv t := by
  refine exec_keeps (I := MapInv) (fun _ _ _ hu => hu.of_codes rfl fun _ => rfl) (fun hu => ?_)
    (fun i d hd u ps _ hu => hu.rule hd ps) (fun i hd u v hv hu => ?_) i h hs
  · exact hu.of_codes (by simp) fun slot => by simp [State.station]
  · by_cases hp : ∃ straps, i = .powerOnReset straps
    · obtain ⟨straps, rfl⟩ := hp
      exact Host.Outcome.next.inj hv ▸ mapInv_poweredOn u straps
    · have notReset (straps) : i ≠ .powerOnReset straps := fun heq => hp ⟨straps, heq⟩
      have quiet : setsStations i = false := by cases i <;> simp_all [setsStations, directiveOf]
      refine hu.evolve ((exec_kept notReset hv).map ?_ ?_) (exec_stations quiet hv) <;> rintro rfl <;> exact nomatch hd

/-- Settles O52: a silence timer that runs changes no code. -/
theorem mapStaysOneToOne : Obligations.MapStaysOneToOne := fun s t hs h =>
  step_keeps (I := MapInv) (fun _ _ hu => hu.of_codes rfl fun _ => rfl)
    (fun _ hu => hu.of_codes rfl fun slot => by
      rw [State.station, State.run, assocGet_map, Option.map_map]
      rfl)
    (fun _ _ _ hv hu => hu.exec hv) hs h

end Sys2Proof.Machine
end

section
/-! What a command leaves alone, part by part: for each part of the state the commands that set it, and the frame of all others. -/

namespace Sys2Proof.Machine

/-! ## The commands that set each part -/

/-- The Reference Clock Unit. -/
def setsClock : Instr → Bool
  | .powerOnReset _ | .timeMark _ | .markTimerExpiry | .holdoverTimerExpiry | .setReference => true
  | _ => false

/-- The trunk ports. -/
def setsTrunks : Instr → Bool
  | .powerOnReset _ | .packetArrival _ _ | .lossOfSignalIndication _ | .linkLossTimerExpiry _ | .arbiterTake | .setLinks
  | .readCounters | .restart => true
  | _ => false

/-- The chain port. -/
def setsChain : Instr → Bool
  | .powerOnReset _ | .directivePacketArrival _ | .forwardComplete | .frameArrival _ | .chainLossOfSignal
  | .chainLinkLossTimerExpiry | .passThroughCompletion | .setLinks | .readCounters | .restart => true
  | _ => false

/-- The hold state and the stall timer. -/
def setsStall : Instr → Bool
  | .powerOnReset _ | .hold | .release | .stallTimerExpiry | .setLinks => true
  | _ => false

/-- The packet in hand. -/
def setsHand : Instr → Bool
  | .powerOnReset _ | .arbiterTake | .handOff => true
  | _ => false

/-- The global counters. -/
def setsGlobals : Instr → Bool
  | .powerOnReset _ | .stallTimerExpiry | .directivePacketArrival _ | .fragmentCompletion | .noticeCompletion | .beginPacket
  | .setLinks | .readCounters | .restart => true
  | _ => false

/-- The Management Agent and its queues. -/
def setsAgent : Instr → Bool
  | .powerOnReset _ | .directivePacketArrival _ | .answerCompletion | .beginPacket | .unknown => true
  | i => (directiveOf i).isSome

/-- The epoch records, the free pages, the closed-epoch queue and the Emitter. -/
def setsRecords : Instr → Bool
  | .powerOnReset _ | .handOff | .timeMark _ | .closeTimeReached | .stallTimerExpiry | .grant | .fragmentCompletion | .setLinks
  | .unmapStation | .setChannel | .storeStart | .storeStop | .restart => true
  | _ => false

/-- The window, and whether the store is Idle. -/
def setsWindow : Instr → Bool
  | .powerOnReset _ | .timeMark _ | .closeTimeReached | .storeStart | .storeStop | .restart => true
  | _ => false

/-- Each part is as it was after a command that does not set it. -/
structure Untouched (i : Instr) (s t : State) : Prop where
  clock   : setsClock i = false → t.ref = s.ref
  trunks  : setsTrunks i = false → t.portA = s.portA ∧ t.portB = s.portB
  chain   : setsChain i = false → t.chain = s.chain
  stall   : setsStall i = false → t.hold = s.hold ∧ t.stallTimer = s.stallTimer
  hand    : setsHand i = false → t.inHand = s.inHand
  globals : setsGlobals i = false → t.globals = s.globals
  agent   : setsAgent i = false → t.agent = s.agent ∧ t.inbound = s.inbound ∧ t.answerQueue = s.answerQueue
  records : setsRecords i = false →
    t.records = s.records ∧ t.freePages = s.freePages ∧ t.closedQueue = s.closedQueue ∧ t.emitter = s.emitter
  window  : setsWindow i = false → t.eLo = s.eLo ∧ (t.store = .idle ↔ s.store = .idle)

variable {i : Instr} {s t u : State}

theorem Untouched.rfl' : Untouched i s s :=
  ⟨fun _ => rfl, fun _ => ⟨rfl, rfl⟩, fun _ => rfl, fun _ => ⟨rfl, rfl⟩, fun _ => rfl, fun _ => rfl,
    fun _ => ⟨rfl, rfl, rfl⟩, fun _ => ⟨rfl, rfl, rfl, rfl⟩, fun _ => ⟨rfl, .rfl⟩⟩

theorem Untouched.comp (h : Untouched i s t) (k : Untouched i t u) : Untouched i s u where
  clock := fun hi => (k.clock hi).trans (h.clock hi)
  trunks := fun hi => ⟨(k.trunks hi).1.trans (h.trunks hi).1, (k.trunks hi).2.trans (h.trunks hi).2⟩
  chain := fun hi => (k.chain hi).trans (h.chain hi)
  stall := fun hi => ⟨(k.stall hi).1.trans (h.stall hi).1, (k.stall hi).2.trans (h.stall hi).2⟩
  hand := fun hi => (k.hand hi).trans (h.hand hi)
  globals := fun hi => (k.globals hi).trans (h.globals hi)
  agent := fun hi => by
    obtain ⟨ha, hb, hq⟩ := h.agent hi
    obtain ⟨ka, kb, kq⟩ := k.agent hi
    exact ⟨ka.trans ha, kb.trans hb, kq.trans hq⟩
  records := fun hi => by
    obtain ⟨hr, hp, hq, he⟩ := h.records hi
    obtain ⟨kr, kp, kq, ke⟩ := k.records hi
    exact ⟨kr.trans hr, kp.trans hp, kq.trans hq, ke.trans he⟩
  window := fun hi => ⟨(k.window hi).1.trans (h.window hi).1, (k.window hi).2.trans (h.window hi).2⟩

/-- An operation of the store and the Emitter, in a command that sets the records and the global counters. -/
theorem EmissionFrame.untouched (h : EmissionFrame s t) (hr : setsRecords i = true) (hg : setsGlobals i = true) : Untouched i s t where
  clock := fun _ => h.ref
  trunks := fun _ => ⟨h.portA, h.portB⟩
  chain := fun _ => h.chain
  stall := fun _ => ⟨h.hold, h.stallTimer⟩
  hand := fun _ => h.inHand
  globals := fun hi => by simp_all
  agent := fun _ => ⟨h.agent, h.inbound, h.answerQueue⟩
  records := fun hi => by simp_all
  window := fun _ => ⟨h.eLo, h.idle⟩

/-- As `EmissionFrame.untouched`, for an operation that leaves the global counters. -/
theorem EmissionFrame.untouched_of_globals (h : EmissionFrame s t) (hr : setsRecords i = true) (hg : t.globals = s.globals) :
    Untouched i s t where
  clock := fun _ => h.ref
  trunks := fun _ => ⟨h.portA, h.portB⟩
  chain := fun _ => h.chain
  stall := fun _ => ⟨h.hold, h.stallTimer⟩
  hand := fun _ => h.inHand
  globals := fun _ => hg
  agent := fun _ => ⟨h.agent, h.inbound, h.answerQueue⟩
  records := fun hi => by simp_all
  window := fun _ => ⟨h.eLo, h.idle⟩

theorem withhold_idle (s : State) : s.withhold.store = .idle ↔ s.store = .idle := by
  unfold State.withhold
  split
  · split
    next h => rcases h with h | h <;> simp [h]
    next => rfl
  · rfl

theorem withhold_untouched (s : State) : Untouched i s s.withhold := by
  constructor
  case window => exact fun _ => ⟨by simp, withhold_idle s⟩
  all_goals simp

theorem put_untouched (s : State) (slot : Nat) (st : Station) : Untouched i s (s.putStation slot st) := by constructor <;> simp

/-- The global counters are no part of what the operations of the Epoch Store set. -/
theorem emptyOpen_globals (s : State) (slot : Nat) (cs : List (Fin 4)) (n : Nat) : (s.emptyOpen slot cs n).globals = s.globals := by
  have emptied (u : State) (i : Nat) (c : Fin 4) : (u.emptySegment i slot c n).globals = u.globals := by
    unfold State.emptySegment
    split <;> rfl
  have record (u : State) (i : Nat) : (u.emptySegments i slot cs n).globals = u.globals := by
    unfold State.emptySegments
    induction cs generalizing u with
    | nil => rfl
    | cons c cs ih => exact (ih _).trans (emptied u i c)
  have all (l : List (Nat × EpochRecord)) (u : State) :
      (l.foldl (fun s p => s.emptySegments p.1 slot cs n) u).globals = u.globals := by
    induction l generalizing u with
    | nil => rfl
    | cons p l ih => exact (ih _).trans (record u p.1)
  simp [State.emptyOpen, all]

theorem openFronts_globals (lo k : Nat) (s : State) : (openFronts lo k s).globals = s.globals := by
  induction k generalizing s with
  | zero => rfl
  | succ k ih =>
    unfold openFronts
    split
    · split
      · exact ih _
      · simp
    · rfl

theorem dropRecords_globals (s : State) (rs : List (Nat × EpochRecord)) : (s.dropRecords rs).globals = s.globals := by
  have dropped (u : State) (i : Nat) : (u.dropRecord i).globals = u.globals := by
    unfold State.dropRecord
    split <;> rfl
  have all (l : List (Nat × EpochRecord)) (u : State) : (l.foldl (fun s p => s.dropRecord p.1) u).globals = u.globals := by
    induction l generalizing u with
    | nil => rfl
    | cons p l ih => exact (ih _).trans (dropped u p.1)
  exact all _ s

/-! ## The operations of the ports and the Reference Clock Unit -/

theorem portDown_untouched (hp : setsTrunks i = true) (s : State) (p : Port) : Untouched i s (s.portDown p) := by
  have routed (u : State) : Untouched i u u.routeLoss := by
    unfold State.routeLoss
    simp only
    split <;> constructor <;> simp
  unfold State.portDown
  split
  · refine Untouched.comp (t := (s.setTrunk p { s.trunk p with link := .down, timer := none }).raise (trunkDownFlag p)) ?_ (routed _)
    constructor <;> simp [hp]
  · exact .rfl'

theorem trunkExpiry_untouched (hp : setsTrunks i = true) (s : State) (p : Port) : Untouched i s (s.trunkExpiry p) := by
  unfold State.trunkExpiry
  split
  · exact portDown_untouched hp s p
  · exact .rfl'

theorem chainLinkExpiry_untouched (hc : setsChain i = true) (s : State) : Untouched i s s.chainLinkExpiry := by
  unfold State.chainLinkExpiry
  split
  · constructor <;> simp [hc]
  · exact .rfl'

theorem stallTimerExpiry_untouched (hs : setsStall i = true) (hr : setsRecords i = true) (hg : setsGlobals i = true) (s : State) :
    Untouched i s s.stallTimerExpiry := by
  rcases stallTimerExpiry_cases s with h | ⟨-, h⟩
  · rw [h]
    exact .rfl'
  · rw [h]
    exact ((stallExpiry_emission s).untouched hr hg).comp (by constructor <;> simp [hs])

theorem holdoverExpiry_untouched (hc : setsClock i = true) (s : State) : Untouched i s s.holdoverExpiry := by
  rcases holdoverExpiry_cases s with h | ⟨-, h⟩
  · rw [h]
    exact .rfl'
  · rw [h]
    rcases signalFailure_cases ((s.setRef { s.ref with state := .failed, holdoverTimer := none }).raise .refFailed) with
      h | ⟨-, -, h⟩ <;> rw [h] <;> constructor <;> simp [hc]

theorem withLinks_untouched (s : State) (loss stall : Nat) : Untouched .setLinks s (s.withLinks loss stall) := by
  have set : Untouched .setLinks s { s with linkLossTime := loss, stallLimit := stall } := by constructor <;> simp
  exact (((set.comp (trunkExpiry_untouched rfl _ .a)).comp (trunkExpiry_untouched rfl _ .b)).comp
    (chainLinkExpiry_untouched rfl _)).comp (stallTimerExpiry_untouched rfl rfl rfl _)

/-! ## Placement -/

/-- Placement sets the sample memory, the records, the free pages and the store between Ready and Starved alone. -/
theorem placeSamples_untouched (p : InHand) (n : Nat) (vs : List Sample) (gs : Nat) (s : State) :
    Untouched .handOff s (placeSamples p n gs vs s) := by
  have counted (u : State) (f : Station → Station) : Untouched .handOff u (u.modifyStation p.slot f) := by
    constructor <;> simp
  have written (u : State) (j slot : Nat) (page : PageNo) (v : Sample) : Untouched .handOff u (u.writeSample j p slot page v) := by
    unfold State.writeSample
    split
    · constructor <;> simp [setsRecords]
    · exact .rfl'
  have overlap (u : State) (j : Nat) : Untouched .handOff u (u.markOverlap j p) := by
    unfold State.markOverlap State.modifyRecord
    split
    · constructor <;> simp [setsRecords]
    · exact .rfl'
  have taken (u : State) : Untouched .handOff u u.takePage := by
    obtain ⟨flags, notice, h, -⟩ := takePage_only u
    rw [h]
    constructor <;> simp [setsRecords]
  have starved (u : State) (hu : u.store = .ready) : Untouched .handOff u u.enterStarved := by
    constructor <;> simp [hu]
  have inRecord (u : State) (j : Nat) (r : EpochRecord) (slot : Nat) (v : Sample) :
      Untouched .handOff u (u.placeInRecord j r p slot v) := by
    unfold State.placeInRecord
    simp only
    split
    · split
      · exact (overlap u j).comp (counted _ _)
      · exact written u _ _ _ _
    · split
      · exact (overlap u j).comp (counted _ _)
      · exact (taken u).comp (written _ _ _ _ _)
    next hready _ => exact (starved u hready).comp (counted _ _)
    next => exact counted u _
  have one (u : State) (gs : Nat) (v : Sample) : Untouched .handOff u (u.placeSample p n gs v) := by
    unfold State.placeSample
    simp only
    split
    · exact counted u _
    · split
      · exact counted u _
      · split
        · exact counted u _
        · exact inRecord u _ _ _ _
  induction vs generalizing gs s with
  | nil => exact .rfl'
  | cons v vs ih => exact (one s gs v).comp (ih _ _)

theorem handlePacket_untouched (s : State) (p : Port) (bs : List Byte) : Untouched .arbiterTake s (s.handlePacket p bs) := by
  rcases handlePacket_cases s p bs with h | h | ⟨slot, a, b, -, -, h | ⟨q, -, -, h⟩⟩ <;> rw [h] <;>
    constructor <;> simp [setsTrunks, setsHand]

/-! ## Every command -/

theorem rule_untouched {d : Directive} (hd : directiveOf i = some d) (s : State) (ps : List Byte) :
    Untouched i s (d.rule s ps).state := by
  cases i <;> simp only [directiveOf, Option.some.injEq, reduceCtorEq] at hd <;> subst hd <;> dsimp only
  case identify | readStore | readFlags => exact .rfl'
  case readStation =>
    rw [readStationRule_state]
    exact .rfl'
  case clearFlags | setNoticeMask => constructor <;> simp [clearFlagsRule, setNoticeMaskRule, DirResult.done]
  case setPlan =>
    rcases setPlanRule_state s ps with h | ⟨_, -, -, -, -, h⟩ <;> rw [h] <;> constructor <;> simp
  case setReference =>
    rcases setReferenceRule_state s ps with h | ⟨wl, limit, -, h⟩
    · rw [h]
      exact .rfl'
    · have set : Untouched .setReference s { s with ref := { s.ref with lockWindow := wl, holdoverLimit := limit } } := by
        constructor <;> simp [setsClock]
      exact h ▸ set.comp (holdoverExpiry_untouched rfl _)
  case setLinks =>
    rcases setLinksRule_state s ps with h | ⟨_, _, h⟩
    · rw [h]
      exact .rfl'
    · exact h ▸ withLinks_untouched s _ _
  case mapStation =>
    rcases mapStationRule_state s ps with h | ⟨_, _, _, -, -, -, -, h⟩ <;> rw [h] <;> constructor <;> simp
  case unmapStation =>
    rcases unmapStationRule_state s ps with h | ⟨slot, _, -, -, h⟩
    · rw [h]
      exact .rfl'
    · have removed : Untouched .unmapStation s { s with map := mapRemove slot s.map, stations := assocErase s.stations slot } := by
        constructor <;> simp
      rw [h]
      by_cases hidle : s.store = .idle
      · exact unmap_of_idle hidle slot ▸ removed
      · exact unmap_of_running hidle slot ▸
          removed.comp ((emptyOpen_emission _ _ _ _).untouched_of_globals rfl (emptyOpen_globals _ _ _ _))
  case setChannel =>
    rcases setChannelRule_state s ps with h | ⟨slot, st, c, rate, word, order, -, -, h⟩
    · rw [h]
      exact .rfl'
    · rw [h]
      unfold State.setChannel
      simp only
      split
      · exact put_untouched s _ _
      · exact (put_untouched s _ _).comp
          ((emptyOpen_emission _ _ [c] _).untouched_of_globals rfl (emptyOpen_globals _ _ [c] _))
  case stageCorrection =>
    rcases stageCorrectionRule_state s ps with h | ⟨_, _, -, -, h⟩
    · rw [h]
      exact .rfl'
    · exact h ▸ put_untouched s _ _
  case commitCorrection =>
    rcases commitCorrectionRule_state s ps with h | ⟨_, _, _, _, -, -, -, h⟩
    · rw [h]
      exact .rfl'
    · exact h ▸ put_untouched s _ _
  case discardStaged =>
    rcases discardStagedRule_state s ps with h | ⟨_, _, -, h⟩
    · rw [h]
      exact .rfl'
    · exact h ▸ put_untouched s _ _
  case quarantine =>
    rcases quarantineRule_state s ps with h | ⟨_, _, -, h⟩
    · rw [h]
      exact .rfl'
    · exact h ▸ put_untouched s _ _
  case unquarantine =>
    rcases unquarantineRule_state s ps with h | ⟨_, _, -, h⟩
    · rw [h]
      exact .rfl'
    · exact h ▸ put_untouched s _ _
  case readCounters =>
    rcases readCountersRule_state s ps with h | ⟨_, h⟩ | h | ⟨_, _, -, h⟩ | h <;> rw [h] <;>
      constructor <;> simp [setsTrunks, setsChain, setsGlobals]
  case storeStart =>
    rcases storeStartRule_state s ps with h | ⟨-, h⟩
    · rw [h]
      exact .rfl'
    · have started : Untouched .storeStart s { s with store := .ready, eLo := some s.startEpoch } := by
        constructor <;> simp [setsWindow]
      exact h ▸ started.comp ((openFronts_emission _ _ _).untouched_of_globals rfl (openFronts_globals _ _ _))
  case storeStop =>
    rcases storeStopRule_state s ps with h | ⟨-, h⟩
    · rw [h]
      exact .rfl'
    · rw [h]
      have dropped : Untouched .storeStop s (s.dropRecords s.openRecords) :=
        (dropRecords_emission s _).untouched_of_globals rfl (dropRecords_globals s _)
      exact dropped.comp (by constructor <;> simp [setsWindow])
  case storeSuspend =>
    rcases storeSuspendRule_state s ps with h | ⟨hrun, h⟩ <;> rw [h] <;> constructor <;> simp
    rcases hrun with hrun | hrun <;> simp [hrun]
  case storeResume =>
    rcases storeResumeRule_state s ps with h | ⟨hsus, h | h⟩ <;> rw [h] <;> constructor <;> simp [*]
  case restart =>
    have dropped : Untouched .restart s (s.dropRecords s.restartRecords) :=
      (dropRecords_emission s _).untouched_of_globals rfl (dropRecords_globals s _)
    exact dropped.comp (by constructor <;> simp [restartRule, DirResult.done, State.restartAll, setsTrunks, setsChain, setsGlobals, setsRecords, setsWindow])

theorem closeEvaluation_untouched (hr : setsRecords i = true) (hw : setsWindow i = true) (s : State) :
    Untouched i s s.closeEvaluation := by
  obtain ⟨_, _, _, _, _, _, _, heq⟩ := closeEvaluation_windowOnly s
  have frame := closeEvaluation_frame s
  refine ⟨fun _ => frame.ref, fun _ => ⟨frame.portA, frame.portB⟩, fun _ => frame.chain, fun _ => ⟨frame.hold, frame.stallTimer⟩,
    fun _ => frame.inHand, fun _ => by rw [heq], fun _ => ⟨frame.agent, frame.inbound, frame.answerQueue⟩, fun hi => ?_, fun hi => ?_⟩ <;> simp_all

/-- The frame of every command. -/
theorem exec_untouched (h : exec i s = .next t) : Untouched i s t := by
  cases hd : directiveOf i with
  | some d =>
    rw [exec_directive hd, Host.Outcome.next.injEq] at h
    have answers : setsAgent i = true := by cases i <;> simp_all [setsAgent, directiveOf]
    exact h ▸ Directive.run_keeps (I := Untouched i s) (fun _ _ _ hu => hu.comp (by constructor <;> simp [answers]))
      (fun hw ps => hw.comp (rule_untouched hd _ ps)) (fun hs => hs.comp (withhold_untouched s)) .rfl'
  | none =>
    cases i <;> simp only [directiveOf, reduceCtorEq] at hd
    case powerOnReset =>
      constructor <;> simp [setsClock, setsTrunks, setsChain, setsStall, setsHand, setsGlobals, setsAgent, setsRecords, setsWindow]
    case packetArrival => exact Host.Outcome.next.inj h ▸ (by constructor <;> simp [setsTrunks])
    case lossOfSignalIndication => exact Host.Outcome.next.inj h ▸ portDown_untouched rfl s _
    case linkLossTimerExpiry => exact Host.Outcome.next.inj h ▸ trunkExpiry_untouched rfl s _
    case arbiterTake =>
      rcases arbiterTake_cases h with rfl | ⟨p, bs, rest, -, -, rfl⟩
      · exact .rfl'
      · have taken : Untouched .arbiterTake s (s.take p) := by constructor <;> simp [State.take, setsTrunks]
        exact taken.comp (handlePacket_untouched _ p bs)
    case handOff =>
      rcases handOff_cases h with rfl | ⟨p, -, ⟨-, rfl⟩ | ⟨-, rfl⟩⟩
      · exact .rfl'
      · have placed : Untouched .handOff s (s.place p) := placeSamples_untouched p _ _ _ s
        exact placed.comp (by constructor <;> simp [setsHand])
      · constructor <;> simp [setsHand]
    case silenceTimerExpiry =>
      rcases silenceTimerExpiry_cases h with rfl | ⟨st, -, rfl⟩
      · exact .rfl'
      · constructor <;> simp
    case timeMark mark =>
      rcases timeMark_cases h with rfl | ⟨-, rfl⟩
      · refine ((withhold_untouched s).comp ?_).comp (closeEvaluation_untouched rfl rfl _)
        constructor <;> simp [setsClock]
      · constructor <;> simp [setsClock]
    case markTimerExpiry => rcases markTimerExpiry_cases h with rfl | rfl <;> constructor <;> simp [setsClock]
    case holdoverTimerExpiry => exact Host.Outcome.next.inj h ▸ holdoverExpiry_untouched rfl s
    case withholdSuspension => exact Host.Outcome.next.inj h ▸ withhold_untouched s
    case closeTimeReached =>
      rcases closeTimeReached_cases h with rfl | rfl
      · exact .rfl'
      · exact (withhold_untouched s).comp (closeEvaluation_untouched rfl rfl _)
    case stallTimerExpiry => exact Host.Outcome.next.inj h ▸ stallTimerExpiry_untouched rfl rfl rfl s
    case directivePacketArrival bs =>
      rcases directivePacketArrival_cases h with rfl | rfl | rfl
      · constructor <;> simp [setsGlobals]
      · constructor <;> simp [setsChain]
      · rcases offerInbound_cases { s with chain := s.routeForward bs } bs with ⟨-, h⟩ | h <;> rw [h] <;>
          constructor <;> simp [setsChain, setsGlobals, setsAgent]
    case forwardComplete => rcases forwardComplete_cases h with rfl | ⟨_, rfl⟩ <;> constructor <;> simp [setsChain]
    case hold => rcases hold_cases h with rfl | rfl <;> constructor <;> simp [setsStall]
    case release => rcases release_cases h with rfl | rfl <;> constructor <;> simp [setsStall]
    case frameArrival | chainLossOfSignal => exact Host.Outcome.next.inj h ▸ (by constructor <;> simp [setsChain])
    case chainLinkLossTimerExpiry => exact Host.Outcome.next.inj h ▸ chainLinkExpiry_untouched rfl s
    case grant =>
      rcases grant_cases h with rfl | ⟨src, rfl⟩
      · exact .rfl'
      · rcases grantSource_cases s src with ⟨_, _, _, h⟩ | h
        · rw [h]
          constructor <;> simp
        · rw [h]
          rcases grantOwn_cases s with h | ⟨_, _, _, _, _, -, -, -, -, h⟩ | ⟨_, _, -, h⟩ <;> rw [h] <;>
            constructor <;> simp [setsRecords]
    case fragmentCompletion =>
      rcases fragmentCompletion_cases h with rfl | rfl
      · exact .rfl'
      · have ended : Untouched .fragmentCompletion s { s with transmitting := none } := by constructor <;> simp
        exact ended.comp ((completeFragment_emission _).untouched rfl rfl)
    case answerCompletion => rcases answerCompletion_cases h with rfl | rfl <;> constructor <;> simp [setsAgent]
    case passThroughCompletion => rcases passThroughCompletion_cases h with rfl | ⟨_, rfl⟩ <;> constructor <;> simp [setsChain]
    case noticeCompletion => rcases noticeCompletion_cases h with rfl | rfl <;> constructor <;> simp [setsGlobals]
    case beginPacket =>
      rcases beginPacket_cases h with rfl | ⟨-, rfl | ⟨-, ⟨_, rfl⟩ | ⟨_, rfl⟩ | ⟨_, -, rfl⟩⟩⟩ <;>
        constructor <;> simp [setsGlobals, setsAgent, State.placeAnswer]
    case unknown =>
      rcases unknown_cases h with rfl | ⟨p, e, rest, -, -, rfl⟩
      · exact .rfl'
      · obtain ⟨_, _, _, heq⟩ := finishEntry_only s p e rest .unknown []
        rw [heq]
        constructor <;> simp [setsAgent]

/-- A directive's own rule leaves the agent and its queues to the forming of the answer. -/
theorem rule_agent {d : Directive} (hd : directiveOf i = some d) (s : State) (ps : List Byte) :
    (d.rule s ps).state.agent = s.agent ∧ (d.rule s ps).state.inbound = s.inbound ∧
      (d.rule s ps).state.answerQueue = s.answerQueue := by
  have linked (u : State) (p : Port) : Untouched (.lossOfSignalIndication p) u (u.trunkExpiry p) := trunkExpiry_untouched rfl u p
  have chained (u : State) : Untouched .chainLossOfSignal u u.chainLinkExpiry := chainLinkExpiry_untouched rfl u
  have stalled (u : State) : Untouched .stallTimerExpiry u u.stallTimerExpiry := stallTimerExpiry_untouched rfl rfl rfl u
  have held (u : State) : Untouched .holdoverTimerExpiry u u.holdoverExpiry := holdoverExpiry_untouched rfl u
  have emptied (u : State) (slot : Nat) (cs : List (Fin 4)) (n : Nat) := emptyOpen_emission u slot cs n
  cases i <;> simp only [directiveOf, Option.some.injEq, reduceCtorEq] at hd <;> subst hd <;> dsimp only
  case identify | readStore | readFlags | clearFlags | setNoticeMask => exact ⟨rfl, rfl, rfl⟩
  case readStation =>
    rw [readStationRule_state]
    exact ⟨rfl, rfl, rfl⟩
  case setPlan => rcases setPlanRule_state s ps with h | ⟨_, -, -, -, -, h⟩ <;> rw [h] <;> exact ⟨rfl, rfl, rfl⟩
  case setReference =>
    rcases setReferenceRule_state s ps with h | ⟨wl, limit, -, h⟩ <;> rw [h]
    · exact ⟨rfl, rfl, rfl⟩
    · exact (held _).agent rfl
  case setLinks =>
    rcases setLinksRule_state s ps with h | ⟨loss, stall, h⟩ <;> rw [h]
    · exact ⟨rfl, rfl, rfl⟩
    · obtain ⟨ha, hb, hq⟩ := (linked { s with linkLossTime := loss, stallLimit := stall } .a).agent rfl
      obtain ⟨ka, kb, kq⟩ := (linked (({ s with linkLossTime := loss, stallLimit := stall } : State).trunkExpiry .a) .b).agent rfl
      obtain ⟨la, lb, lq⟩ := (chained _).agent rfl
      obtain ⟨ma, mb, mq⟩ := (stalled _).agent rfl
      exact ⟨ma.trans (la.trans (ka.trans ha)), mb.trans (lb.trans (kb.trans hb)), mq.trans (lq.trans (kq.trans hq))⟩
  case mapStation => rcases mapStationRule_state s ps with h | ⟨_, _, _, -, -, -, -, h⟩ <;> rw [h] <;> exact ⟨rfl, rfl, rfl⟩
  case unmapStation =>
    rcases unmapStationRule_state s ps with h | ⟨slot, _, -, -, h⟩ <;> rw [h]
    · exact ⟨rfl, rfl, rfl⟩
    · by_cases hidle : s.store = .idle
      · rw [unmap_of_idle hidle]
        exact ⟨rfl, rfl, rfl⟩
      · rw [unmap_of_running hidle]
        exact ⟨(emptied _ _ _ _).agent, (emptied _ _ _ _).inbound, (emptied _ _ _ _).answerQueue⟩
  case setChannel =>
    rcases setChannelRule_state s ps with h | ⟨slot, st, c, rate, word, order, -, -, h⟩ <;> rw [h]
    · exact ⟨rfl, rfl, rfl⟩
    · unfold State.setChannel
      simp only
      split
      · exact ⟨rfl, rfl, rfl⟩
      · exact ⟨(emptied _ _ [c] _).agent, (emptied _ _ [c] _).inbound, (emptied _ _ [c] _).answerQueue⟩
  case stageCorrection => rcases stageCorrectionRule_state s ps with h | ⟨_, _, -, -, h⟩ <;> rw [h] <;> exact ⟨rfl, rfl, rfl⟩
  case commitCorrection =>
    rcases commitCorrectionRule_state s ps with h | ⟨_, _, _, _, -, -, -, h⟩ <;> rw [h] <;> exact ⟨rfl, rfl, rfl⟩
  case discardStaged => rcases discardStagedRule_state s ps with h | ⟨_, _, -, h⟩ <;> rw [h] <;> exact ⟨rfl, rfl, rfl⟩
  case quarantine => rcases quarantineRule_state s ps with h | ⟨_, _, -, h⟩ <;> rw [h] <;> exact ⟨rfl, rfl, rfl⟩
  case unquarantine => rcases unquarantineRule_state s ps with h | ⟨_, _, -, h⟩ <;> rw [h] <;> exact ⟨rfl, rfl, rfl⟩
  case readCounters => rcases readCountersRule_state s ps with h | ⟨_, h⟩ | h | ⟨_, _, -, h⟩ | h <;> rw [h] <;> simp
  case storeStart =>
    rcases storeStartRule_state s ps with h | ⟨-, h⟩ <;> rw [h]
    · exact ⟨rfl, rfl, rfl⟩
    · have opened := openFronts_emission s.startEpoch 17 { s with store := .ready, eLo := some s.startEpoch }
      exact ⟨opened.agent, opened.inbound, opened.answerQueue⟩
  case storeStop =>
    rcases storeStopRule_state s ps with h | ⟨-, h⟩ <;> rw [h]
    · exact ⟨rfl, rfl, rfl⟩
    · have dropped := dropRecords_emission s s.openRecords
      exact ⟨dropped.agent, dropped.inbound, dropped.answerQueue⟩
  case storeSuspend => rcases storeSuspendRule_state s ps with h | ⟨-, h⟩ <;> rw [h] <;> exact ⟨rfl, rfl, rfl⟩
  case storeResume => rcases storeResumeRule_state s ps with h | ⟨-, h | h⟩ <;> rw [h] <;> simp
  case restart =>
    have dropped := dropRecords_emission s s.restartRecords
    exact ⟨dropped.agent, dropped.inbound, dropped.answerQueue⟩

end Sys2Proof.Machine
end

section
/-! Every station record after a command, and the invariants of the correction records and of the plan (R15, R24, R25, R33, R34, R74,
R75). -/

namespace Sys2Proof.Machine

variable {i : Instr} {s t u : State}

/-! ## Every change of a station record -/

/-- How a station record can change under a command: as `Station.Evolves` says, or by the directives on its channels and on its
correction records. -/
inductive Station.Changes (s : State) (a : Station) : Station → Prop
  | evolves {b : Station} (h : a.Evolves b) : Changes s a b
  | configured (c : Fin 4) {rate : Nat} (word : SampleWord) (order : SampleOrder)
      (hfit : (samplesPerEpoch rate s.plan.epochLength).isSome = true) :
      Changes s a { a with channels := a.channels.set c ((a.channels.get c).configure rate word order) }
  | staged {ps : List Byte} (hin : StageInRange ps) : Changes s a { a with staged := some (stagedOf ps) }
  | committed {staged : Correction} {switch : Nat} (eSw : Nat) (hs : a.staged = some staged) (hswitch : switch < 2 ^ 48) :
      Changes s a (a.committed staged switch eSw (s.retiresAtOnce eSw))
  | discarded : Changes s a { a with staged := none }

/-- The station records of `t` are changed ones of `s`, and ones newly mapped. -/
def StationsChange (s t : State) : Prop :=
  ∀ slot b, (slot, b) ∈ t.stations →
    (∃ a, (slot, a) ∈ s.stations ∧ a.Changes s b) ∨ ∃ code mask limit, b = freshStation code mask limit

theorem StationsEvolve.change (h : StationsEvolve s t) : StationsChange s t := fun slot b hb => by
  obtain ⟨a, ha, hab⟩ := h.listed slot b hb
  exact .inl ⟨a, ha, .evolves hab⟩

theorem StationsChange.of_eq (h : t.stations = s.stations) : StationsChange s t := (StationsEvolve.of_eq h).change

theorem StationsChange.put {slot : Nat} {a b : Station} (ha : s.station slot = some a) (h : a.Changes s b) :
    StationsChange s (s.putStation slot b) := fun k c hc => by
  rcases mem_assocPut hc with heq | hc
  · cases heq
    exact .inl ⟨a, mem_of_assocGet ha, h⟩
  · exact .inl ⟨c, hc, .evolves .rfl'⟩

theorem StationsChange.ofFrame (h : StationsChange s t) (frame : EmissionFrame t u) : StationsChange s u := fun slot b hb =>
  h slot b (frame.stations ▸ hb)

theorem rule_changes {d : Directive} (hd : directiveOf i = some d) (s : State) (ps : List Byte) :
    StationsChange s (d.rule s ps).state := by
  by_cases hi : setsStations i = false
  · exact (rule_stations hd hi s ps).change
  cases i <;> simp only [setsStations, not_true_eq_false] at hi
  all_goals simp only [directiveOf, Option.some.injEq, reduceCtorEq] at hd
  all_goals subst hd; dsimp only
  case mapStation =>
    rcases mapStationRule_state s ps with h | ⟨slot, mask, limit, -, -, -, -, h⟩
    · exact .of_eq (by rw [h])
    · rw [h]
      intro k b hb
      rcases mem_assocPut hb with heq | hb
      · cases heq
        exact .inr ⟨_, _, _, rfl⟩
      · exact .inl ⟨b, hb, .evolves .rfl'⟩
  case unmapStation =>
    rcases unmapStationRule_state s ps with h | ⟨slot, st, -, -, h⟩
    · exact .of_eq (by rw [h])
    · have removed : StationsChange s { s with map := mapRemove slot s.map, stations := assocErase s.stations slot } :=
        fun k b hb => .inl ⟨b, (mem_assocErase hb).1, .evolves .rfl'⟩
      rw [h]
      by_cases hidle : s.store = .idle
      · exact unmap_of_idle hidle slot ▸ removed
      · exact unmap_of_running hidle slot ▸ removed.ofFrame (emptyOpen_emission _ _ _ _)
  case setChannel =>
    rcases setChannelRule_state s ps with h | ⟨slot, st, c, rate, word, order, hst, hfit, h⟩
    · exact .of_eq (by rw [h])
    · have configured := StationsChange.put hst (.configured c word order hfit)
      rw [h]
      unfold State.setChannel
      simp only
      split
      · exact configured
      · exact configured.ofFrame (emptyOpen_emission _ _ [c] _)
  case stageCorrection =>
    rcases stageCorrectionRule_state s ps with h | ⟨slot, st, hst, hin, h⟩
    · exact .of_eq (by rw [h])
    · exact h ▸ .put hst (.staged hin)
  case commitCorrection =>
    rcases commitCorrectionRule_state s ps with h | ⟨slot, st, staged, eSw, hst, hs, -, h⟩
    · exact .of_eq (by rw [h])
    · exact h ▸ .put hst (.committed eSw hs (fieldAt_lt ps 1 6))
  case discardStaged =>
    rcases discardStagedRule_state s ps with h | ⟨slot, st, hst, h⟩
    · exact .of_eq (by rw [h])
    · exact h ▸ .put hst .discarded

/-! ## The plan and every channel's rate code -/

theorem PlanInv.of_changes (h : PlanInv s) (hplan : t.plan = s.plan) (hst : StationsChange s t) : PlanInv t where
  range := hplan ▸ h.range
  depth := hplan ▸ h.depth
  fits := fun slot b hb c => by
    rw [hplan]
    rcases hst slot b hb with ⟨a, ha, hab⟩ | ⟨code, mask, limit, rfl⟩
    · cases hab with
      | evolves hab => exact hab.rate c ▸ h.fits slot a ha c
      | configured c' word order hfit =>
        rw [get_set]
        split
        · exact hfit
        · exact h.fits slot a ha c
      | staged => exact h.fits slot a ha c
      | committed => exact h.fits slot a ha c
      | discarded => exact h.fits slot a ha c
    · rw [freshStation_channel]
      rfl

theorem PlanInv.rule (h : PlanInv s) {d : Directive} (hd : directiveOf i = some d) (ps : List Byte) :
    PlanInv (d.rule s ps).state := by
  by_cases hi : i = .setPlan
  · subst hi
    cases hd
    rcases setPlanRule_state s ps with heq | ⟨plan, hrange, hdepth, hfit, -, heq⟩
    · rwa [heq]
    · rw [heq]
      refine ⟨hrange, hdepth, fun slot st hst c => (channelsFit_iff s _).1 hfit slot st hst c⟩
  · exact h.of_changes ((rule_kept hd s ps).plan hi) (rule_changes hd s ps)

theorem PlanInv.exec (h : exec i s = .next t) (hs : PlanInv s) : PlanInv t := by
  refine exec_keeps (I := PlanInv) (fun _ _ _ hu => hu.of_changes rfl (.of_eq rfl))
    (fun hu => hu.of_changes (by simp) (.of_eq (by simp))) (fun i d hd u ps _ hu => hu.rule hd ps) (fun i hd u v hv hu => ?_) i h hs
  by_cases hp : ∃ straps, i = .powerOnReset straps
  · obtain ⟨straps, rfl⟩ := hp
    exact Host.Outcome.next.inj hv ▸ planInv_poweredOn u straps
  · have notReset (straps) : i ≠ .powerOnReset straps := fun heq => hp ⟨straps, heq⟩
    have quiet : setsStations i = false := by cases i <;> simp_all [setsStations, directiveOf]
    refine hu.of_changes ((exec_kept notReset hv).plan ?_) (exec_stations quiet hv).change
    rintro rfl
    cases hd

/-- Running time changes no station record but for its silence timer. -/
theorem mem_stations_run {s : State} {d slot : Nat} {b : Station} (h : (slot, b) ∈ (s.run d).stations) :
    ∃ a, (slot, a) ∈ s.stations ∧ b = { a with silence := runTimer d a.silence } := by
  obtain ⟨a, ha, heq⟩ := mem_assocMap.1 h
  exact ⟨a, ha, heq.symm⟩

theorem PlanInv.run (h : PlanInv s) (d : Nat) : PlanInv (s.run d) where
  range := h.range
  depth := h.depth
  fits := fun slot b hb c => by
    obtain ⟨a, ha, rfl⟩ := mem_stations_run hb
    exact h.fits slot a ha c

/-! ## The correction records -/

/-- What the invariant asks of one station's correction records, with the window's lowest epoch. -/
structure Station.CorrectionsOk (eLo : Option Nat) (st : Station) : Prop where
  current  : st.current.InRange
  staged   : ∀ c, st.staged = some c → c.InRange ∧ c.isDefault = false ∧ c.switch = none
  previous : ∀ p, st.previous = some p → p.record.InRange ∧ st.current.switch.isSome = true ∧ ∃ lo, eLo = some lo ∧ lo ≤ p.eSw

theorem correctionInv_iff (s : State) :
    CorrectionInv s ↔ (s.eLo.isSome = true ↔ s.store ≠ .idle) ∧ ∀ slot st, (slot, st) ∈ s.stations → st.CorrectionsOk s.eLo :=
  ⟨fun h => ⟨h.window, fun slot st hst => ⟨h.current slot st hst, h.staged slot st hst, h.previous slot st hst⟩⟩,
    fun ⟨hw, hst⟩ => ⟨hw, fun slot st h => (hst slot st h).current, fun slot st h => (hst slot st h).staged,
      fun slot st h => (hst slot st h).previous⟩⟩

theorem Station.CorrectionsOk.evolve {a b : Station} {eLo : Option Nat} (ha : a.CorrectionsOk eLo) (h : a.Evolves b) :
    b.CorrectionsOk eLo where
  current := h.current ▸ ha.current
  staged := fun c hc => ha.staged c (h.staged ▸ hc)
  previous := fun p hp => by
    rcases h.previous with heq | heq
    · rw [h.current]
      exact ha.previous p (heq ▸ hp)
    · rw [heq] at hp
      cases hp

/-- No previous record is held. -/
theorem Station.CorrectionsOk.retired {a b : Station} {eLo eLo' : Option Nat} (ha : a.CorrectionsOk eLo) (h : a.Evolves b)
    (hb : b.previous = none) : b.CorrectionsOk eLo' where
  current := h.current ▸ ha.current
  staged := fun c hc => ha.staged c (h.staged ▸ hc)
  previous := fun p hp => by
    rw [hb] at hp
    cases hp

/-- A window that moves to `lo` keeps the previous records that it has not passed (R33). -/
theorem Station.CorrectionsOk.retireBelow {a : Station} {eLo : Option Nat} (ha : a.CorrectionsOk eLo) (lo : Nat) :
    (Machine.retireBelow lo a).CorrectionsOk (some lo) := by
  have ok := ha.evolve (retireBelow_evolves lo a)
  refine ⟨ok.current, ok.staged, fun p hp => ?_⟩
  obtain ⟨hr, hs, -⟩ := ok.previous p hp
  refine ⟨hr, hs, lo, rfl, ?_⟩
  unfold Machine.retireBelow at hp
  split at hp
  next q hq =>
    split at hp
    · cases hp
    next hlow =>
      rw [hq] at hp
      cases hp
      exact Nat.not_lt.1 hlow
  next hq =>
    rw [hq] at hp
    cases hp

theorem stagedOf_inRange {ps : List Byte} (h : StageInRange ps) : (stagedOf ps).InRange := by
  obtain ⟨-, ho, ho', hd, hd', hs, hs'⟩ := h
  exact ⟨⟨ho, ho'⟩, ⟨hd, hd'⟩, fieldAt_lt ps 13 6, ⟨hs, hs'⟩, fieldAt_lt ps 23 2, nofun⟩

theorem Correction.InRange.switched {c : Correction} (h : c.InRange) {switch : Nat} (hs : switch < 2 ^ 48) :
    ({ c with switch := some switch } : Correction).InRange :=
  ⟨h.offset, h.drift, h.refTime, h.span, h.version, fun _ ht => Option.some.inj ht ▸ hs⟩

theorem correction_default_inRange : Correction.default.InRange := by
  refine ⟨by decide, by decide, by decide, by decide, by decide, nofun⟩

theorem freshStation_corrections (code : Nat) (mask : RouteMask) (limit : Nat) (eLo : Option Nat) :
    (freshStation code mask limit).CorrectionsOk eLo := ⟨correction_default_inRange, nofun, nofun⟩

/-- Every change of a station record while the window stays where it is. -/
theorem Station.CorrectionsOk.changes (hw : s.eLo.isSome = true ↔ s.store ≠ .idle) {a b : Station} (ha : a.CorrectionsOk s.eLo)
    (h : a.Changes s b) : b.CorrectionsOk s.eLo := by
  cases h with
  | evolves h => exact ha.evolve h
  | configured => exact ⟨ha.current, ha.staged, ha.previous⟩
  | staged hin =>
    refine ⟨ha.current, fun c hc => ?_, ha.previous⟩
    cases hc
    exact ⟨stagedOf_inRange hin, rfl, rfl⟩
  | @committed staged switch eSw hs hswitch =>
    obtain ⟨hrange, -, -⟩ := ha.staged staged hs
    refine ⟨hrange.switched hswitch, nofun, fun p hp => ?_⟩
    cases hret : s.retiresAtOnce eSw with
    | true => simp [committed, hret] at hp
    | false =>
      simp only [committed, hret] at hp
      cases hp
      rw [← Bool.not_eq_true, retiresAtOnce_iff, not_or] at hret
      obtain ⟨lo, hlo⟩ := Option.isSome_iff_exists.1 (hw.2 hret.1)
      exact ⟨ha.current, rfl, lo, hlo, Nat.not_lt.1 fun hlt => hret.2 ⟨lo, hlo, hlt⟩⟩
  | discarded => exact ⟨ha.current, nofun, ha.previous⟩

theorem CorrectionInv.of_changes (h : CorrectionInv s) (hwin : t.eLo = s.eLo ∧ (t.store = .idle ↔ s.store = .idle))
    (hst : StationsChange s t) : CorrectionInv t := by
  obtain ⟨hw, hok⟩ := (correctionInv_iff s).1 h
  obtain ⟨heLo, hidle⟩ := hwin
  rw [correctionInv_iff, heLo, Ne, hidle]
  refine ⟨hw, fun slot b hb => ?_⟩
  rcases hst slot b hb with ⟨a, ha, hab⟩ | ⟨code, mask, limit, rfl⟩
  · exact (hok slot a ha).changes hw hab
  · exact freshStation_corrections _ _ _ _

theorem CorrectionInv.ofFrame (h : CorrectionInv s) (frame : EmissionFrame s t) : CorrectionInv t :=
  h.of_changes ⟨frame.eLo, frame.idle⟩ (.of_eq frame.stations)

/-- The window moves to `lo`, and previous records that it has passed are retired (R33). -/
theorem CorrectionInv.moved (h : CorrectionInv s) (hstore : s.store ≠ .idle) {lo : Nat} (heLo : t.eLo = some lo)
    (ht : t.store = s.store) (hst : t.stations = assocMap (retireBelow lo) s.stations) : CorrectionInv t := by
  rw [correctionInv_iff, heLo, ht]
  refine ⟨by simp [hstore], fun slot b hb => ?_⟩
  rw [hst] at hb
  obtain ⟨a, ha, rfl⟩ := mem_assocMap.1 hb
  exact (((correctionInv_iff s).1 h).2 slot a ha).retireBelow lo

/-- The store is Idle and no station holds a previous record. -/
theorem CorrectionInv.stopped (h : CorrectionInv s) (heLo : t.eLo = none) (ht : t.store = .idle) {f : Station → Station}
    (hst : t.stations = assocMap f s.stations) (hf : ∀ a : Station, a.Evolves (f a) ∧ (f a).previous = none) : CorrectionInv t := by
  rw [correctionInv_iff, heLo, ht]
  refine ⟨by simp, fun slot b hb => ?_⟩
  rw [hst] at hb
  obtain ⟨a, ha, rfl⟩ := mem_assocMap.1 hb
  exact (((correctionInv_iff s).1 h).2 slot a ha).retired (hf a).1 (hf a).2

theorem CorrectionInv.closeEvaluation (h : CorrectionInv s) : CorrectionInv s.closeEvaluation := by
  have closed (u : State) (hu : CorrectionInv u ∧ u.store = s.store) (hrun : s.store ≠ .idle) (j : Nat) :
      CorrectionInv (u.closeRecord j) ∧ (u.closeRecord j).store = s.store := by
    unfold State.closeRecord
    split
    · exact ⟨hu.1.moved (hu.2 ▸ hrun) rfl rfl rfl, hu.2⟩
    · exact hu
  have due (hrun : s.store ≠ .idle) (l : List (Nat × EpochRecord)) (u : State) (hu : CorrectionInv u ∧ u.store = s.store) :
      CorrectionInv (l.foldl (fun s p => s.closeRecord p.1) u) ∧ (l.foldl (fun s p => s.closeRecord p.1) u).store = s.store := by
    induction l generalizing u with
    | nil => exact hu
    | cons p l ih => exact ih _ (closed u hu hrun p.1)
  unfold State.closeEvaluation
  split
  · exact h
  next hrun =>
    obtain ⟨hdue, hstore⟩ : CorrectionInv s.closeDue ∧ s.closeDue.store = s.store := due hrun _ s ⟨h, rfl⟩
    refine CorrectionInv.ofFrame (s := s.closeDue.skipTo (s.closeDue.plan.firstEpoch s.closeDue.ref.ntNow)) ?_ (openWindow_emission _)
    unfold State.skipTo
    split
    · split
      · exact hdue.moved (by rwa [← hstore] at hrun) rfl (by simp) (by simp)
      · exact hdue
    · exact hdue

theorem CorrectionInv.rule (h : CorrectionInv s) {d : Directive} (hd : directiveOf i = some d) (ps : List Byte) :
    CorrectionInv (d.rule s ps).state := by
  by_cases hi : setsWindow i = false
  · exact h.of_changes ((rule_untouched hd s ps).window hi) (rule_changes hd s ps)
  cases i <;> simp only [setsWindow, not_true_eq_false] at hi
  all_goals simp only [directiveOf, Option.some.injEq, reduceCtorEq] at hd
  all_goals subst hd; dsimp only
  case storeStart =>
    rcases storeStartRule_state s ps with heq | ⟨hidle, heq⟩
    · rwa [heq]
    · obtain ⟨hw, hok⟩ := (correctionInv_iff s).1 h
      have noWindow : s.eLo = none := by simpa [hidle] using hw
      rw [heq]
      refine CorrectionInv.ofFrame ?_ (openFronts_emission _ _ _)
      refine (correctionInv_iff _).2 ⟨by simp, fun slot a ha => ⟨(hok slot a ha).current, (hok slot a ha).staged, fun p hp => ?_⟩⟩
      obtain ⟨-, -, lo, hlo, -⟩ := (hok slot a ha).previous p hp
      rw [noWindow] at hlo
      cases hlo
  case storeStop =>
    rcases storeStopRule_state s ps with heq | ⟨-, heq⟩
    · rwa [heq]
    · rw [heq]
      exact (h.ofFrame (dropRecords_emission s s.openRecords)).stopped (f := retirePrevious) (by simp) (by simp) (by simp)
        fun a => ⟨retirePrevious_evolves a, rfl⟩
  case restart => exact h.stopped (f := restartStation) rfl rfl rfl fun a => ⟨restartStation_evolves a, rfl⟩

theorem CorrectionInv.withhold (h : CorrectionInv s) : CorrectionInv s.withhold :=
  h.of_changes ⟨by simp, withhold_idle s⟩ (.of_eq (by simp))

theorem CorrectionInv.exec (h : exec i s = .next t) (hs : CorrectionInv s) : CorrectionInv t := by
  refine exec_keeps (I := CorrectionInv) (fun _ _ _ hu => hu.of_changes ⟨rfl, .rfl⟩ (.of_eq rfl)) (fun hu => hu.withhold)
    (fun i d hd u ps _ hu => hu.rule hd ps) (fun i hd u v hv hu => ?_) i h hs
  by_cases hi : setsWindow i = false
  · have quiet : setsStations i = false := by cases i <;> simp_all [setsStations, directiveOf, setsWindow]
    exact hu.of_changes ((exec_untouched hv).window hi) (exec_stations quiet hv).change
  cases i <;> simp only [setsWindow, not_true_eq_false] at hi
  all_goals simp only [directiveOf, reduceCtorEq] at hd
  case powerOnReset straps => exact Host.Outcome.next.inj hv ▸ correctionInv_poweredOn u straps
  case timeMark mark =>
    rcases timeMark_cases hv with rfl | ⟨-, rfl⟩
    · refine CorrectionInv.closeEvaluation ?_
      exact hu.withhold.of_changes ⟨by simp, by simp⟩ (.of_eq (by simp))
    · exact hu.of_changes ⟨by simp, by simp⟩ (.of_eq (by simp))
  case closeTimeReached =>
    rcases closeTimeReached_cases hv with rfl | rfl
    · exact hu
    · exact hu.withhold.closeEvaluation

theorem CorrectionInv.run (h : CorrectionInv s) (d : Nat) : CorrectionInv (s.run d) := by
  obtain ⟨hw, hok⟩ := (correctionInv_iff s).1 h
  refine (correctionInv_iff _).2 ⟨hw, fun slot b hb => ?_⟩
  obtain ⟨a, ha, rfl⟩ := mem_stations_run hb
  exact ⟨(hok slot a ha).current, (hok slot a ha).staged, (hok slot a ha).previous⟩

/-- Settles O56: each command's changes of a station record are the five of `Station.Changes`, and the window's moves retire the
previous records that it passes. -/
theorem recordsAndPlanStayConsistent : Obligations.RecordsAndPlanStayConsistent :=
  ⟨fun _ _ hs h => step_keeps (I := CorrectionInv) (fun _ _ hu => hu.of_changes ⟨rfl, .rfl⟩ (.of_eq rfl)) (fun _ hu => hu.run _)
      (fun _ _ _ hv hu => hu.exec hv) hs h,
    fun _ _ hs h => step_keeps (I := PlanInv) (fun _ _ hu => hu.of_changes rfl (.of_eq rfl)) (fun _ hu => hu.run _)
      (fun _ _ _ hv hu => hu.exec hv) hs h⟩

end Sys2Proof.Machine
end

section
/-! The Reference Clock Unit in each of its states (R43, R46 to R54). -/

namespace Sys2Proof.Machine

variable {i : Instr} {s t u : State}

/-- What the invariants ask of the Reference Clock Unit: its items in each state, and its two timers. -/
structure RefClock.Sound (r : RefClock) : Prop where
  clock    : r.ntNow < 2 ^ 64
  second   : ∀ m, r.lastSecond = some m → m < 2 ^ 32
  free     : r.state = .free → r.goodCount = 0 ∧ r.lastSecond = none
  notFree  : r.state ≠ .free → r.lastSecond.isSome = true
  counting : r.state = .acquiring → r.goodCount ≤ 2
  good     : r.state = .locked ∨ r.state = .holdover ∨ r.state = .failed → r.goodCount = 3
  rejects  : r.rejectCount ≤ 2 ∧ (r.state ≠ .locked → r.rejectCount = 0)
  limits   : 1 ≤ r.lockWindow ∧ r.lockWindow ≤ 1000 ∧ 10 ≤ r.holdoverLimit ∧ r.holdoverLimit ≤ 86400

theorem refInv_iff (s : State) : RefInv s ↔ s.ref.Sound :=
  ⟨fun h => ⟨h.clock, h.second, h.free, h.notFree, h.counting, h.good, h.rejects, h.limits⟩,
    fun h => ⟨h.clock, h.second, h.free, h.notFree, h.counting, h.good, h.rejects, h.limits⟩⟩

/-- The two timers of the unit, each running exactly in its states (R41, R51, R53). -/
structure RefClock.TimersOk (r : RefClock) : Prop where
  mark     : timerWithin Config.markTimeout r.markTimer ∧ (r.markTimer.isSome = true ↔ r.state = .locked ∨ r.state = .acquiring)
  holdover : timerWithin r.holdoverNs r.holdoverTimer ∧ (r.holdoverTimer.isSome = true ↔ r.state = .holdover)

theorem secondNs_lt {m : Nat} (h : m < 2 ^ 32) : secondNs m < 2 ^ 64 := by
  simp only [secondNs, nsPerSecond]
  omega

theorem expected_lt {r : RefClock} {x : Nat} (h : r.expected = some x) : x < 2 ^ 32 := by
  unfold RefClock.expected at h
  split at h
  · split at h
    next hlt => exact Option.some.inj h ▸ hlt
    next => cases h
  · cases h

theorem timerWithin_stopped (limit : Nat) : timerWithin limit none := nofun

theorem timerWithin_started (limit : Nat) : timerWithin limit (some 0) := fun _ h => Option.some.inj h ▸ Nat.zero_le _

theorem timer_stopped_of_state {t : Timer} {p : Prop} (h : t.isSome = true ↔ p) (hp : ¬ p) : t = none := by
  cases t with
  | none => rfl
  | some e => exact absurd (h.1 rfl) hp

/-! ## Marks and expiries -/

theorem RefClock.Sound.acquireFrom {r : RefClock} (h : r.Sound) {m : Nat} (hm : m < 2 ^ 32) : (r.acquireFrom m).Sound where
  clock := secondNs_lt hm
  second := fun _ hx => Option.some.inj hx ▸ hm
  free := nofun
  notFree := fun _ => rfl
  counting := fun _ => one_le_two
  good := nofun
  rejects := ⟨Nat.zero_le _, fun _ => rfl⟩
  limits := h.limits

theorem RefClock.TimersOk.acquireFrom (r : RefClock) (m : Nat) : (r.acquireFrom m).TimersOk :=
  ⟨⟨timerWithin_started _, by simp [RefClock.acquireFrom]⟩, ⟨timerWithin_stopped _, by simp [RefClock.acquireFrom]⟩⟩

theorem RefClock.Sound.markAcquiring {r : RefClock} (h : r.Sound) (hs : r.state = .acquiring) {m : Nat} (hm : m < 2 ^ 32) :
    (r.markAcquiring m).Sound := by
  have counted := h.counting hs
  have rejected : r.rejectCount = 0 := h.rejects.2 (by simp [hs])
  obtain ⟨good, hgood, heq⟩ : ∃ good ≤ 3, r.markAcquiring m =
      { r with
        ntNow := secondNs m, state := if good = 3 then .locked else .acquiring, lastSecond := some m, goodCount := good
        rejectCount := if good = 3 then 0 else r.rejectCount, markTimer := some 0 } := by
    refine ⟨_, ?_, rfl⟩
    split <;> omega
  rw [heq, rejected]
  by_cases hlocked : good = 3
  · simp only [if_pos hlocked]
    exact ⟨secondNs_lt hm, fun _ hx => Option.some.inj hx ▸ hm, nofun, fun _ => rfl, nofun, fun _ => hlocked,
      ⟨Nat.zero_le _, fun _ => rfl⟩, h.limits⟩
  · simp only [if_neg hlocked]
    exact ⟨secondNs_lt hm, fun _ hx => Option.some.inj hx ▸ hm, nofun, fun _ => rfl, fun _ => by simp only; omega, nofun,
      ⟨Nat.zero_le _, fun _ => rfl⟩, h.limits⟩

theorem markAcquiring_state (r : RefClock) (m : Nat) :
    (r.markAcquiring m).state = .locked ∨ (r.markAcquiring m).state = .acquiring := by
  unfold RefClock.markAcquiring
  generalize (decide (1 ≤ r.goodCount) && decide (r.lastSecond.map (· + 1) = some m)
    && withinWindow (markError r m) (10 * r.lockWindow)) = agrees
  dsimp only
  split
  · exact ite_eq_or_eq _ _ _
  · exact .inr rfl

theorem RefClock.TimersOk.markAcquiring {r : RefClock} (h : r.TimersOk) (hs : r.state = .acquiring) (m : Nat) :
    (r.markAcquiring m).TimersOk := by
  have stopped : (r.markAcquiring m).holdoverTimer = none := timer_stopped_of_state h.holdover.2 (by simp [hs])
  have running : (r.markAcquiring m).markTimer = some 0 := rfl
  have landed := markAcquiring_state r m
  refine ⟨⟨running ▸ timerWithin_started _, by simp [running, landed]⟩, ⟨stopped ▸ timerWithin_stopped _, ?_⟩⟩
  rcases landed with heq | heq <;> simp [stopped, heq]

theorem RefClock.Sound.reject {r : RefClock} (h : r.Sound) (hs : r.state = .locked) : r.reject.Sound := by
  obtain ⟨last, hlast⟩ := Option.isSome_iff_exists.1 (h.notFree (by simp [hs]))
  have hlt := h.second last hlast
  have kept : keptSecond last < 2 ^ 32 := by
    unfold keptSecond
    split <;> omega
  have good := h.good (.inl hs)
  rw [RefClock.reject_eq hlast hlt]
  split
  · exact ⟨h.clock, fun _ hx => Option.some.inj hx ▸ kept, nofun, fun _ => rfl, fun _ => Nat.zero_le _, nofun,
      ⟨Nat.zero_le _, fun _ => rfl⟩, h.limits⟩
  next hfew =>
    exact ⟨h.clock, fun _ hx => Option.some.inj hx ▸ kept, by simp [hs], fun _ => rfl, by simp [hs], fun _ => good,
      ⟨by simp only; omega, fun hne => absurd hs hne⟩, h.limits⟩

theorem RefClock.TimersOk.reject {r : RefClock} (h : r.TimersOk) (hs : r.state = .locked) : r.reject.TimersOk := by
  have stopped : r.holdoverTimer = none := timer_stopped_of_state h.holdover.2 (by simp [hs])
  unfold RefClock.reject
  simp only
  split
  · exact ⟨⟨timerWithin_started _, by simp⟩, ⟨stopped ▸ timerWithin_stopped _, by simp [stopped]⟩⟩
  · exact ⟨⟨timerWithin_started _, by simp [hs]⟩, ⟨stopped ▸ timerWithin_stopped _, by simp [stopped, hs]⟩⟩

theorem RefClock.Sound.mark {r : RefClock} (h : r.Sound) (mark : Mark) : (r.mark mark).1.Sound := by
  unfold RefClock.mark
  split
  case h_1 | h_8 => exact h.acquireFrom (BitVec.isLt _)
  case h_3 hs => exact h.markAcquiring hs (BitVec.isLt _)
  case h_5 hs =>
    unfold RefClock.markLocked
    split
    next x hx =>
      split
      · have good := h.good (.inl hs)
        exact ⟨secondNs_lt (expected_lt hx), fun _ hy => Option.some.inj hy ▸ expected_lt hx, by simp [hs], fun _ => rfl,
          by simp [hs], fun _ => good, ⟨Nat.zero_le _, fun _ => rfl⟩, h.limits⟩
      · exact h.reject hs
    · exact h.reject hs
  case h_6 m hs =>
    unfold RefClock.markHoldover
    split
    · have good := h.good (.inr (.inl hs))
      exact ⟨secondNs_lt (BitVec.isLt m), fun _ hy => Option.some.inj hy ▸ BitVec.isLt m, nofun, fun _ => rfl, nofun, fun _ => good,
        ⟨Nat.zero_le _, fun _ => rfl⟩, h.limits⟩
    · exact h.acquireFrom (BitVec.isLt _)
  all_goals exact h

theorem RefClock.TimersOk.markAny {r : RefClock} (h : r.TimersOk) (mark : Mark) : (r.mark mark).1.TimersOk := by
  unfold RefClock.mark
  split
  case h_1 | h_8 => exact .acquireFrom r _
  case h_3 hs => exact h.markAcquiring hs _
  case h_5 hs =>
    have stopped : r.holdoverTimer = none := timer_stopped_of_state h.holdover.2 (by simp [hs])
    unfold RefClock.markLocked
    split
    · split
      · exact ⟨⟨timerWithin_started _, by simp [hs]⟩, ⟨stopped ▸ timerWithin_stopped _, by simp [stopped, hs]⟩⟩
      · exact h.reject hs
    · exact h.reject hs
  case h_6 =>
    unfold RefClock.markHoldover
    split
    · exact ⟨⟨timerWithin_started _, by simp⟩, ⟨timerWithin_stopped _, by simp⟩⟩
    · exact .acquireFrom r _
  all_goals exact h

theorem RefClock.Sound.loseMarks {r : RefClock} (h : r.Sound) : r.loseMarks.Sound := by
  unfold RefClock.loseMarks
  split
  next hs =>
    exact ⟨h.clock, h.second, nofun, fun _ => h.notFree (by simp [hs]), nofun, fun _ => h.good (.inl hs), ⟨Nat.zero_le _, fun _ => rfl⟩,
      h.limits⟩
  next hs =>
    exact ⟨h.clock, nofun, fun _ => ⟨rfl, rfl⟩, fun hn => absurd rfl hn, nofun, nofun,
      ⟨h.rejects.1, fun _ => h.rejects.2 (by simp [hs])⟩, h.limits⟩
  all_goals exact h

theorem RefClock.TimersOk.loseMarks {r : RefClock} (h : r.TimersOk) : r.loseMarks.TimersOk := by
  unfold RefClock.loseMarks
  split
  next hs => exact ⟨⟨timerWithin_stopped _, by simp⟩, ⟨timerWithin_started _, by simp⟩⟩
  next hs =>
    have stopped : r.holdoverTimer = none := timer_stopped_of_state h.holdover.2 (by simp [hs])
    refine ⟨⟨timerWithin_stopped _, by simp⟩, ?_⟩
    rw [stopped]
    exact ⟨timerWithin_stopped _, by simp⟩
  all_goals exact h

/-- Holdover ends in Failed (R53). -/
theorem RefClock.Sound.failed {r : RefClock} (h : r.Sound) (hs : r.state = .holdover) :
    ({ r with state := .failed, holdoverTimer := none } : RefClock).Sound :=
  ⟨h.clock, h.second, nofun, fun _ => h.notFree (by simp [hs]), nofun, fun _ => h.good (.inr (.inl hs)),
    ⟨h.rejects.1, fun _ => h.rejects.2 (by simp [hs])⟩, h.limits⟩

theorem ntAfter_lt (r : RefClock) (d : Nat) : r.ntAfter d < 2 ^ 64 := by
  unfold RefClock.ntAfter
  split
  next h => exact h
  next => exact Nat.mod_lt _ (by decide)

/-! ## The unit through every command -/

/-- What the holdover expiry leaves the Reference Clock Unit: as it was, or in Failed. -/
theorem holdoverExpiry_ref (s : State) :
    s.holdoverExpiry.ref = s.ref ∧ (s.ref.state = .holdover → timerDue s.ref.holdoverNs s.ref.holdoverTimer = false) ∨
      s.ref.state = .holdover ∧ s.holdoverExpiry.ref = { s.ref with state := .failed, holdoverTimer := none } := by
  unfold State.holdoverExpiry
  split
  next h =>
    refine .inr ⟨h.1, ?_⟩
    unfold State.signalFailure
    split <;> simp
  next h => exact .inl ⟨rfl, fun hs => eq_false_of_ne_true fun hd => h ⟨hs, hd⟩⟩

/-- The Reference Clock Unit after a command: as before, or changed by a mark, an expiry, a reset or SET-REFERENCE. -/
theorem exec_ref {I : RefClock → Prop} (mark : ∀ {r : RefClock} m, I r → I (r.mark m).1) (lose : ∀ {r : RefClock}, I r → I r.loseMarks)
    (fail : ∀ {r : RefClock}, r.state = .holdover → I r → I { r with state := .failed, holdoverTimer := none }) (reset : I RefClock.reset)
    (set : ∀ {u : State} ps, I u.ref → I (setReferenceRule u ps).state.ref) (h : exec i s = .next t) (hs : I s.ref) : I t.ref := by
  by_cases hi : setsClock i = false
  · exact (exec_untouched h).clock hi ▸ hs
  cases i <;> simp only [setsClock, not_true_eq_false] at hi
  case powerOnReset straps =>
    rw [← Host.Outcome.next.inj h]
    exact (poweredOn_ref s straps).symm ▸ reset
  case timeMark m =>
    rcases timeMark_cases h with rfl | ⟨-, rfl⟩
    · rw [(closeEvaluation_frame _).ref, State.setRef_ref]
      exact mark m hs
    · rw [State.setRef_ref]
      exact mark m hs
  case markTimerExpiry =>
    rcases markTimerExpiry_cases h with rfl | rfl
    · exact hs
    · rw [State.setRef_ref]
      exact lose hs
  case holdoverTimerExpiry =>
    rw [← Host.Outcome.next.inj h]
    rcases holdoverExpiry_ref s with ⟨heq, -⟩ | ⟨hstate, heq⟩ <;> rw [heq]
    · exact hs
    · exact fail hstate hs
  case setReference =>
    rw [exec_directive (i := .setReference) rfl, Host.Outcome.next.injEq] at h
    exact h ▸ Directive.run_keeps (I := fun u => I u.ref) (fun _ _ _ hu => hu) (fun hw ps => set ps hw)
      (fun hu => by rwa [State.withhold_ref]) hs

theorem RefClock.Sound.setReference (h : s.ref.Sound) (ps : List Byte) : (setReferenceRule s ps).state.ref.Sound := by
  rcases setReferenceRule_state s ps with heq | ⟨wl, limit, hin, heq⟩ <;> rw [heq]
  · exact h
  · have set : ({ s.ref with lockWindow := wl, holdoverLimit := limit } : RefClock).Sound :=
      ⟨h.clock, h.second, h.free, h.notFree, h.counting, h.good, h.rejects, hin⟩
    rcases holdoverExpiry_ref { s with ref := { s.ref with lockWindow := wl, holdoverLimit := limit } } with
      ⟨heq, -⟩ | ⟨hstate, heq⟩ <;> rw [heq]
    · exact set
    · exact set.failed hstate

theorem RefClock.Sound.run (h : s.ref.Sound) (d : Nat) : (s.run d).ref.Sound where
  clock := ntAfter_lt s.ref d
  second := h.second
  free := h.free
  notFree := h.notFree
  counting := h.counting
  good := h.good
  rejects := h.rejects
  limits := h.limits

theorem RefClock.sound_reset : RefClock.reset.Sound :=
  poweredOn_ref .reset 0 ▸ (refInv_iff _).1 (refInv_poweredOn .reset 0)

/-- Settles O55, through `RefClock.Sound` of the unit alone. -/
theorem referenceStateStaysConsistent : Obligations.ReferenceStateStaysConsistent := fun s t hs h => by
  refine (refInv_iff t).2 (step_keeps (I := fun u => u.ref.Sound) (fun _ _ hu => hu) (fun _ hu => ?_) (fun c u v hv hu => ?_)
    ((refInv_iff s).1 hs) h)
  · exact RefClock.Sound.run hu _
  · exact exec_ref (I := RefClock.Sound) (fun m hr => hr.mark m) (fun hr => hr.loseMarks) (fun hstate hr => hr.failed hstate)
      RefClock.sound_reset (fun ps hr => RefClock.Sound.setReference hr ps) hv hu

end Sys2Proof.Machine
end

section
/-! The trunk ports, the chain port and the stall timer through every command: timers that run in their states (R8, R41, R51, R53,
R107, R148, R155), queues within their depths and counters within 32 bits (R22, R103, R111, R154, R157, R159, R160, R177). -/

namespace Sys2Proof.Machine

variable {i : Instr} {s t u : State}

/-! ## The ports -/

/-- How a link and its timer change: not at all, Up with the timer from 0, or Down with the timer stopped. -/
def LinkMoves (l : LinkState) (timer : Timer) (l' : LinkState) (timer' : Timer) : Prop :=
  (l' = l ∧ timer' = timer) ∨ (l' = .up ∧ timer' = some 0) ∨ (l' = .down ∧ timer' = none)

/-- A link timer that has not overrun its limit and runs exactly while the link is Up (R107, R155). -/
def LinkTimerOk (limit : Nat) (l : LinkState) (timer : Timer) : Prop :=
  timerWithin limit timer ∧ (timer.isSome = true ↔ l = .up)

theorem LinkTimerOk.moves {limit : Nat} {l l' : LinkState} {timer timer' : Timer} (h : LinkTimerOk limit l timer)
    (hm : LinkMoves l timer l' timer') : LinkTimerOk limit l' timer' := by
  rcases hm with ⟨rfl, rfl⟩ | ⟨rfl, rfl⟩ | ⟨rfl, rfl⟩
  · exact h
  · exact ⟨timerWithin_started _, by simp⟩
  · exact ⟨timerWithin_stopped _, by simp⟩

theorem LinkMoves.comp {l l' l'' : LinkState} {timer timer' timer'' : Timer} (h : LinkMoves l timer l' timer')
    (k : LinkMoves l' timer' l'' timer'') : LinkMoves l timer l'' timer'' := by
  rcases k with ⟨rfl, rfl⟩ | k | k
  · exact h
  · exact .inr (.inl k)
  · exact .inr (.inr k)

/-- How a trunk port changes: its link, its FIFO within its depth, and its counters within 32 bits. -/
structure TrunkPort.Evolves (a b : TrunkPort) : Prop where
  link     : LinkMoves a.link a.timer b.link b.timer
  fifo     : a.fifo.length ≤ Config.fifoDepth → b.fifo.length ≤ Config.fifoDepth
  counters : a.countersFit → b.countersFit

/-- How the chain port changes. -/
structure ChainPort.Evolves (a b : ChainPort) : Prop where
  link     : LinkMoves a.link a.timer b.link b.timer
  buffer   : a.buffer.length ≤ Config.bufferDepth → b.buffer.length ≤ Config.bufferDepth
  forward  : a.forwardQueue.length ≤ Config.forwardDepth → b.forwardQueue.length ≤ Config.forwardDepth
  counters : (∀ c ∈ a.counterList, c ≤ counterMax) → ∀ c ∈ b.counterList, c ≤ counterMax

theorem TrunkPort.Evolves.rfl' {a : TrunkPort} : a.Evolves a := ⟨.inl ⟨rfl, rfl⟩, id, id⟩

theorem TrunkPort.Evolves.comp {a b c : TrunkPort} (h : a.Evolves b) (k : b.Evolves c) : a.Evolves c :=
  ⟨h.link.comp k.link, k.fifo ∘ h.fifo, k.counters ∘ h.counters⟩

theorem ChainPort.Evolves.rfl' {a : ChainPort} : a.Evolves a := ⟨.inl ⟨rfl, rfl⟩, id, id, id⟩

theorem ChainPort.Evolves.comp {a b c : ChainPort} (h : a.Evolves b) (k : b.Evolves c) : a.Evolves c :=
  ⟨h.link.comp k.link, k.buffer ∘ h.buffer, k.forward ∘ h.forward, fun hc => k.counters (h.counters hc)⟩

theorem countersFit_iff (t : TrunkPort) : t.countersFit ↔
    t.goodPackets ≤ counterMax ∧ t.lengthErrors ≤ counterMax ∧ t.checkErrors ≤ counterMax ∧ t.overflows ≤ counterMax ∧
      t.unknownStation ≤ counterMax := by simp [TrunkPort.countersFit, TrunkPort.counterList]

theorem forall_mem_chainCounters (c : ChainPort) (P : Nat → Prop) : (∀ n ∈ c.counterList, P n) ↔
    P c.goodFrames ∧ P c.typeErrors ∧ P c.lengthErrors ∧ P c.checkErrors ∧ P c.overflows ∧ P c.forwardDrops := by
  simp [ChainPort.counterList]

theorem trunkArrival_evolves (t : TrunkPort) (bs : List Byte) : t.Evolves (t.arrival bs) := by
  unfold TrunkPort.arrival
  split
  · refine ⟨.inl ⟨rfl, rfl⟩, id, ?_⟩
    simp only [countersFit_iff, bump_le]
    tauto
  · split
    · refine ⟨.inl ⟨rfl, rfl⟩, id, ?_⟩
      simp only [countersFit_iff, bump_le]
      tauto
    · simp only
      split
      next hroom =>
        refine ⟨.inr (.inl ⟨rfl, rfl⟩), fun _ => by simpa using hroom, ?_⟩
        simp only [countersFit_iff, bump_le]
        tauto
      next =>
        refine ⟨.inr (.inl ⟨rfl, rfl⟩), id, ?_⟩
        simp only [countersFit_iff, bump_le]
        tauto

theorem trunkDown_evolves (t : TrunkPort) : t.Evolves { t with link := .down, timer := none } :=
  ⟨.inr (.inr ⟨rfl, rfl⟩), id, id⟩

theorem trunkTaken_evolves (t : TrunkPort) : t.Evolves { t with fifo := t.fifo.tail } :=
  ⟨.inl ⟨rfl, rfl⟩, fun h => by simp only [List.length_tail]; omega, id⟩

theorem trunkUnknown_evolves (t : TrunkPort) : t.Evolves { t with unknownStation := bump t.unknownStation } := by
  refine ⟨.inl ⟨rfl, rfl⟩, id, ?_⟩
  simp only [countersFit_iff, bump_le]
  tauto

theorem trunkCleared_evolves (t : TrunkPort) : t.Evolves t.clearCounters :=
  ⟨.inl ⟨rfl, rfl⟩, id, fun _ => (countersFit_iff _).2 (by simp [TrunkPort.clearCounters])⟩

theorem trunkRestarted_evolves (t : TrunkPort) : t.Evolves (restartTrunk t) :=
  ⟨.inl ⟨rfl, rfl⟩, fun _ => Nat.zero_le _, fun _ => (countersFit_iff _).2 (by simp [restartTrunk, TrunkPort.clearCounters])⟩

theorem trunkReset_evolves (t : TrunkPort) : t.Evolves TrunkPort.reset :=
  ⟨.inr (.inr ⟨rfl, rfl⟩), fun _ => Nat.zero_le _, fun _ => (counterInv_poweredOn .reset 0).portA⟩

theorem chainCleared_evolves (c : ChainPort) : c.Evolves c.clearCounters :=
  ⟨.inl ⟨rfl, rfl⟩, id, id, fun _ => (forall_mem_chainCounters _ _).2 (by simp [ChainPort.clearCounters])⟩

theorem chainReset_evolves (c : ChainPort) : c.Evolves ChainPort.reset :=
  ⟨.inr (.inr ⟨rfl, rfl⟩), fun _ => Nat.zero_le _, fun _ => Nat.zero_le _, fun _ => (counterInv_poweredOn .reset 0).chain⟩

theorem goDown_evolves (c : ChainPort) : c.Evolves c.goDown := by
  unfold ChainPort.goDown
  split
  · exact ⟨.inr (.inr ⟨rfl, rfl⟩), id, id, id⟩
  · exact .rfl'

theorem chainArrival_evolves (c : ChainPort) (bs : List Byte) : c.Evolves (c.arrival bs) := by
  have good : c.Evolves (c.goodFrame bs) := by
    unfold ChainPort.goodFrame
    simp only
    split
    next hroom =>
      refine ⟨.inr (.inl ⟨rfl, rfl⟩), fun _ => by simpa using hroom, id, ?_⟩
      simp only [forall_mem_chainCounters, bump_le]
      tauto
    next =>
      refine ⟨.inr (.inl ⟨rfl, rfl⟩), id, id, ?_⟩
      simp only [forall_mem_chainCounters, bump_le]
      tauto
  unfold ChainPort.arrival
  split
  · refine ⟨.inl ⟨rfl, rfl⟩, id, id, ?_⟩
    simp only [forall_mem_chainCounters, bump_le]
    tauto
  · split
    · refine ⟨.inl ⟨rfl, rfl⟩, id, id, ?_⟩
      simp only [forall_mem_chainCounters, bump_le]
      tauto
    · split
      · refine ⟨.inl ⟨rfl, rfl⟩, id, id, ?_⟩
        simp only [forall_mem_chainCounters, bump_le]
        tauto
      · split
        · refine ⟨.inl ⟨rfl, rfl⟩, id, id, ?_⟩
          simp only [forall_mem_chainCounters, bump_le]
          tauto
        · exact good

theorem routeForward_evolves (s : State) (bs : List Byte) : s.chain.Evolves (s.routeForward bs) := by
  rcases routeForward_cases s bs with h | h | ⟨hroom, out, h⟩ <;> rw [h]
  · exact .rfl'
  · refine ⟨.inl ⟨rfl, rfl⟩, id, id, ?_⟩
    simp only [ChainPort.countForwardDrop, forall_mem_chainCounters, bump_le]
    tauto
  · exact ⟨.inl ⟨rfl, rfl⟩, id, fun _ => by simpa using hroom, id⟩

/-! ## The ports through every command -/

/-- Both trunk ports and the chain port evolve. -/
structure PortsEvolve (s t : State) : Prop where
  trunk : ∀ p, (s.trunk p).Evolves (t.trunk p)
  chain : s.chain.Evolves t.chain

theorem PortsEvolve.comp (h : PortsEvolve s t) (k : PortsEvolve t u) : PortsEvolve s u :=
  ⟨fun p => (h.trunk p).comp (k.trunk p), h.chain.comp k.chain⟩

theorem PortsEvolve.of_eq (ha : t.portA = s.portA) (hb : t.portB = s.portB) (hc : t.chain = s.chain) : PortsEvolve s t :=
  ⟨fun p => by cases p <;> simp only [State.trunk, ha, hb] <;> exact .rfl', hc ▸ .rfl'⟩

theorem PortsEvolve.of_chain (h : s.chain.Evolves t.chain) (ha : t.portA = s.portA) (hb : t.portB = s.portB) : PortsEvolve s t :=
  ⟨fun p => by cases p <;> simp only [State.trunk, ha, hb] <;> exact .rfl', h⟩

theorem PortsEvolve.setTrunk {p : Port} {b : TrunkPort} (h : (s.trunk p).Evolves b) : PortsEvolve s (s.setTrunk p b) :=
  ⟨fun q => by cases p <;> cases q <;> first | exact h | exact .rfl', by simpa using .rfl'⟩

theorem routeLoss_only (s : State) :
    ∃ stations flags notice, s.routeLoss = { s with stations := stations, flags := flags, noticeSlot := notice } := by
  unfold State.routeLoss
  simp only
  split
  · obtain ⟨flags, notice, h, -⟩ := raise_only
      { s with stations := assocMap (fun st => if s.losesRoute st then { st with state := .silent, silence := none } else st) s.stations }
      .stationSilent
    exact ⟨_, flags, notice, h⟩
  · exact ⟨_, s.flags, s.noticeSlot, rfl⟩

/-- All that a port going Down sets: the port, the stations, the flags and the notice. -/
theorem portDown_of_up {s : State} {p : Port} (h : (s.trunk p).link = .up) :
    ∃ stations flags notice, s.portDown p =
      { s.setTrunk p { s.trunk p with link := .down, timer := none } with stations := stations, flags := flags, noticeSlot := notice } := by
  obtain ⟨flags, notice, hraise, -⟩ := raise_only (s.setTrunk p { s.trunk p with link := .down, timer := none }) (trunkDownFlag p)
  obtain ⟨stations, flags', notice', hroute⟩ :=
    routeLoss_only ((s.setTrunk p { s.trunk p with link := .down, timer := none }).raise (trunkDownFlag p))
  refine ⟨stations, flags', notice', ?_⟩
  rw [State.portDown, if_pos h, hroute, hraise]

theorem portDown_ports (s : State) (p : Port) : PortsEvolve s (s.portDown p) := by
  by_cases h : (s.trunk p).link = .up
  · obtain ⟨_, _, _, heq⟩ := portDown_of_up h
    exact heq ▸ (PortsEvolve.setTrunk (trunkDown_evolves (s.trunk p))).comp (.of_eq rfl rfl rfl)
  · rw [State.portDown, if_neg h]
    exact .of_eq rfl rfl rfl

theorem trunkExpiry_ports (s : State) (p : Port) : PortsEvolve s (s.trunkExpiry p) := by
  unfold State.trunkExpiry
  split
  · exact portDown_ports s p
  · exact .of_eq rfl rfl rfl

theorem chainLinkExpiry_ports (s : State) : PortsEvolve s s.chainLinkExpiry := by
  unfold State.chainLinkExpiry
  split
  · exact .of_chain (goDown_evolves _) rfl rfl
  · exact .of_eq rfl rfl rfl

theorem stallTimerExpiry_ports (s : State) : PortsEvolve s s.stallTimerExpiry := by
  rcases stallTimerExpiry_cases s with h | ⟨-, h⟩ <;> rw [h]
  · exact .of_eq rfl rfl rfl
  · have frame := stallExpiry_frame s
    exact .of_eq frame.portA frame.portB frame.chain

theorem withLinks_ports (s : State) (loss stall : Nat) : PortsEvolve s (s.withLinks loss stall) := by
  have set : PortsEvolve s { s with linkLossTime := loss, stallLimit := stall } := .of_eq rfl rfl rfl
  exact (((set.comp (trunkExpiry_ports _ .a)).comp (trunkExpiry_ports _ .b)).comp (chainLinkExpiry_ports _)).comp
    (stallTimerExpiry_ports _)

/-- The ports after a directive. -/
theorem rule_ports {d : Directive} (hd : directiveOf i = some d) (s : State) (ps : List Byte) : PortsEvolve s (d.rule s ps).state := by
  have kept := rule_untouched hd s ps
  by_cases hi : setsTrunks i = false
  · have quiet : setsChain i = false := by cases i <;> simp_all [setsTrunks, setsChain, directiveOf]
    exact .of_eq (kept.trunks hi).1 (kept.trunks hi).2 (kept.chain quiet)
  cases i <;> simp only [setsTrunks, not_true_eq_false] at hi
  all_goals simp only [directiveOf, Option.some.injEq, reduceCtorEq] at hd
  all_goals subst hd; dsimp only
  case setLinks =>
    rcases setLinksRule_state s ps with h | ⟨_, _, h⟩ <;> rw [h]
    · exact .of_eq rfl rfl rfl
    · exact withLinks_ports s _ _
  case readCounters =>
    rcases readCountersRule_state s ps with h | ⟨p, h⟩ | h | ⟨_, _, -, h⟩ | h <;> rw [h]
    · exact .of_eq rfl rfl rfl
    · exact .setTrunk (trunkCleared_evolves _)
    · exact .of_chain (chainCleared_evolves _) rfl rfl
    · exact .of_eq rfl rfl rfl
    · exact .of_eq rfl rfl rfl
  case restart => exact ⟨fun p => by cases p <;> exact trunkRestarted_evolves _, chainCleared_evolves _⟩

theorem exec_ports (h : exec i s = .next t) : PortsEvolve s t := by
  cases hd : directiveOf i with
  | some d =>
    rw [exec_directive hd, Host.Outcome.next.injEq] at h
    exact h ▸ Directive.run_keeps (I := PortsEvolve s) (fun _ _ _ hu => hu.comp (.of_eq rfl rfl rfl))
      (fun hw ps => hw.comp (rule_ports hd _ ps)) (fun hs => hs.comp (.of_eq (by simp) (by simp) (by simp))) (.of_eq rfl rfl rfl)
  | none =>
    have kept := exec_untouched h
    by_cases hi : setsTrunks i = false ∧ setsChain i = false
    · exact .of_eq (kept.trunks hi.1).1 (kept.trunks hi.1).2 (kept.chain hi.2)
    cases i <;> simp only [setsTrunks, setsChain, and_self, not_true_eq_false, directiveOf, reduceCtorEq] at hi hd
    case powerOnReset =>
      exact Host.Outcome.next.inj h ▸ ⟨fun p => by cases p <;> exact trunkReset_evolves _, chainReset_evolves _⟩
    case packetArrival => exact Host.Outcome.next.inj h ▸ .setTrunk (trunkArrival_evolves _ _)
    case lossOfSignalIndication => exact Host.Outcome.next.inj h ▸ portDown_ports s _
    case linkLossTimerExpiry => exact Host.Outcome.next.inj h ▸ trunkExpiry_ports s _
    case arbiterTake =>
      rcases arbiterTake_cases h with rfl | ⟨p, bs, rest, -, -, rfl⟩
      · exact .of_eq rfl rfl rfl
      · have taken : PortsEvolve s (s.take p) := (PortsEvolve.setTrunk (trunkTaken_evolves _)).comp (.of_eq rfl rfl rfl)
        refine taken.comp ?_
        rcases handlePacket_cases (s.take p) p bs with h | h | ⟨slot, a, b, -, -, h | ⟨q, -, -, h⟩⟩ <;> rw [h]
        · exact .setTrunk (trunkUnknown_evolves _)
        all_goals exact .of_eq rfl rfl rfl
    case directivePacketArrival bs =>
      have routed : PortsEvolve s { s with chain := s.routeForward bs } := .of_chain (routeForward_evolves s bs) rfl rfl
      rcases directivePacketArrival_cases h with rfl | rfl | rfl
      · exact .of_eq rfl rfl rfl
      · exact routed
      · refine routed.comp ?_
        rcases offerInbound_cases { s with chain := s.routeForward bs } bs with ⟨-, h⟩ | h <;> rw [h] <;>
          refine .of_eq ?_ ?_ ?_ <;> simp
    case forwardComplete =>
      rcases forwardComplete_cases h with rfl | ⟨out, rfl⟩
      · exact .of_eq rfl rfl rfl
      · refine .of_chain ⟨.inl ⟨rfl, rfl⟩, id, fun hlen => ?_, id⟩ rfl rfl
        simp only [List.length_tail]
        omega
    case frameArrival => exact Host.Outcome.next.inj h ▸ .of_chain (chainArrival_evolves _ _) rfl rfl
    case chainLossOfSignal => exact Host.Outcome.next.inj h ▸ .of_chain (goDown_evolves _) rfl rfl
    case chainLinkLossTimerExpiry => exact Host.Outcome.next.inj h ▸ chainLinkExpiry_ports s
    case passThroughCompletion =>
      rcases passThroughCompletion_cases h with rfl | ⟨out, rfl⟩
      · exact .of_eq rfl rfl rfl
      · refine .of_chain ⟨.inl ⟨rfl, rfl⟩, fun hlen => ?_, id, id⟩ rfl rfl
        simp only [List.length_tail]
        omega

/-! ## The timers -/

theorem timerInv_iff (s : State) : TimerInv s ↔
    (∀ p, LinkTimerOk s.linkLossNs (s.trunk p).link (s.trunk p).timer) ∧ LinkTimerOk s.linkLossNs s.chain.link s.chain.timer ∧
      (timerWithin s.stallNs s.stallTimer ∧ (s.stallTimer.isSome = true ↔ s.hold = .held)) ∧ s.ref.TimersOk ∧
      ∀ slot st, (slot, st) ∈ s.stations → st.TimerOk :=
  ⟨fun h => ⟨fun p => by cases p <;> [exact h.portA; exact h.portB], h.chain, h.stall, ⟨h.mark, h.holdover⟩, h.silence⟩,
    fun ⟨ht, hc, hs, hr, hst⟩ => ⟨ht .a, ht .b, hc, hs, hr.mark, hr.holdover, hst⟩⟩

theorem timerDue_eq_false {limit : Nat} {timer : Timer} (h : timerDue limit timer = false) : timerWithin limit timer := fun e he => by
  subst he
  exact (Nat.lt_of_not_le (of_decide_eq_false h)).le

/-- A link whose timer has run the limit goes Down, so that no timer overruns the limit (R107, R110). -/
theorem trunkExpiry_timerOk (s : State) (p : Port) (h : (s.trunk p).timer.isSome = true ↔ (s.trunk p).link = .up) :
    LinkTimerOk s.linkLossNs ((s.trunkExpiry p).trunk p).link ((s.trunkExpiry p).trunk p).timer := by
  unfold State.trunkExpiry
  split
  next hdue =>
    have up : (s.trunk p).link = .up := h.1 (by cases ht : (s.trunk p).timer <;> simp_all [timerDue])
    have down : (s.portDown p).trunk p = { s.trunk p with link := .down, timer := none } := by
      obtain ⟨_, _, _, heq⟩ := portDown_of_up up
      rw [heq]
      cases p <;> rfl
    rw [down]
    exact ⟨timerWithin_stopped _, by simp⟩
  next hdue => exact ⟨timerDue_eq_false (eq_false_of_ne_true hdue), h⟩

theorem chainLinkExpiry_timerOk (s : State) (h : s.chain.timer.isSome = true ↔ s.chain.link = .up) :
    LinkTimerOk s.linkLossNs s.chainLinkExpiry.chain.link s.chainLinkExpiry.chain.timer := by
  unfold State.chainLinkExpiry
  split
  next hdue =>
    have up : s.chain.link = .up := h.1 (by cases ht : s.chain.timer <;> simp_all [timerDue])
    rw [goDown_of_up up]
    exact ⟨timerWithin_stopped _, by simp⟩
  next hdue => exact ⟨timerDue_eq_false (eq_false_of_ne_true hdue), h⟩

theorem stallTimerExpiry_timerOk (s : State) (h : s.stallTimer.isSome = true ↔ s.hold = .held) :
    timerWithin s.stallNs s.stallTimerExpiry.stallTimer ∧
      (s.stallTimerExpiry.stallTimer.isSome = true ↔ s.stallTimerExpiry.hold = .held) := by
  unfold State.stallTimerExpiry
  split
  next hdue =>
    have held : s.hold = .held := h.1 (by cases ht : s.stallTimer <;> simp_all [timerDue])
    exact ⟨timerWithin_started _, by simp [(stallExpiry_frame s).hold, held]⟩
  next hdue => exact ⟨timerDue_eq_false (eq_false_of_ne_true hdue), h⟩

theorem Station.TimerOk.changes {a b : Station} (ha : a.TimerOk) (h : a.Changes s b) : b.TimerOk := by
  cases h with
  | evolves h => exact h.timer ha
  | configured => exact ha
  | staged => exact ha
  | committed => exact ha
  | discarded => exact ha

theorem freshStation_timerOk (code : Nat) (mask : RouteMask) (limit : Nat) : (freshStation code mask limit).TimerOk :=
  Station.timerOk_of_stopped rfl nofun

end Sys2Proof.Machine
end

section
/-! Timers, counters, capacities and the sample memory through every step (R22, R41, R107, R111, R148, R155, R159, R160, R177). -/

namespace Sys2Proof.Machine

variable {i : Instr} {s t u : State}

/-- What every change of a station record keeps, and a newly mapped one has, all station records keep through every command. -/
theorem exec_forall_stations {P : Station → Prop} (change : ∀ {u : State} {a b : Station}, a.Changes u b → P a → P b)
    (fresh : ∀ code mask limit, P (freshStation code mask limit)) (h : exec i s = .next t)
    (hs : ∀ slot st, (slot, st) ∈ s.stations → P st) : ∀ slot st, (slot, st) ∈ t.stations → P st := by
  have through {u v : State} (hv : StationsChange u v) (hu : ∀ slot st, (slot, st) ∈ u.stations → P st) :
      ∀ slot st, (slot, st) ∈ v.stations → P st := fun slot b hb => by
    rcases hv slot b hb with ⟨a, ha, hab⟩ | ⟨code, mask, limit, rfl⟩
    · exact change hab (hu slot a ha)
    · exact fresh code mask limit
  refine exec_keeps (I := fun u => ∀ slot st, (slot, st) ∈ u.stations → P st) (fun _ _ _ hu => hu)
    (fun hu => by rwa [State.withhold_stations]) (fun i d hd u ps _ hu => through (rule_changes hd u ps) hu)
    (fun i hd u v hv hu => ?_) i h hs
  by_cases quiet : setsStations i = false
  · exact through (exec_stations quiet hv).change hu
  · cases i <;> simp only [setsStations, not_true_eq_false, directiveOf, reduceCtorEq] at quiet hd
    rw [← Host.Outcome.next.inj hv]
    intro slot st hst
    cases hst

/-! ## The timers -/

theorem RefClock.TimersOk.setReference (h : s.ref.TimersOk) (ps : List Byte) : (setReferenceRule s ps).state.ref.TimersOk := by
  rcases setReferenceRule_state s ps with heq | ⟨wl, limit, hin, heq⟩ <;> rw [heq]
  · exact h
  rcases holdoverExpiry_ref { s with ref := { s.ref with lockWindow := wl, holdoverLimit := limit } } with
    ⟨heq, hdue⟩ | ⟨hstate, heq⟩ <;> rw [heq]
  · refine ⟨h.mark, ?_, h.holdover.2⟩
    by_cases hs : s.ref.state = .holdover
    · exact timerDue_eq_false (hdue hs)
    · rw [timer_stopped_of_state h.holdover.2 hs]
      exact timerWithin_stopped _
  · have stopped : s.ref.markTimer = none := timer_stopped_of_state h.mark.2 (by simp [show s.ref.state = .holdover from hstate])
    exact ⟨by simp [stopped, timerWithin_stopped], by simp [timerWithin_stopped]⟩

theorem RefClock.TimersOk.failed {r : RefClock} (h : r.TimersOk) (hs : r.state = .holdover) :
    ({ r with state := .failed, holdoverTimer := none } : RefClock).TimersOk := by
  have stopped : r.markTimer = none := timer_stopped_of_state h.mark.2 (by simp [hs])
  exact ⟨by simp [stopped, timerWithin_stopped], by simp [timerWithin_stopped]⟩

/-- A link that has moved still runs its timer exactly while it is Up. -/
theorem LinkMoves.running {l l' : LinkState} {timer timer' : Timer} (hm : LinkMoves l timer l' timer')
    (h : timer.isSome = true ↔ l = .up) : timer'.isSome = true ↔ l' = .up := by
  rcases hm with ⟨rfl, rfl⟩ | ⟨rfl, rfl⟩ | ⟨rfl, rfl⟩
  · exact h
  · simp
  · simp

/-- SET-LINKS: the timers that have run a new limit expire as it takes effect (R110, R148). -/
theorem TimerInv.withLinks (h : TimerInv s) (loss stall : Nat) : TimerInv (s.withLinks loss stall) := by
  obtain ⟨htrunk, hchain, hstall, href, hst⟩ := (timerInv_iff s).1 h
  let s1 : State := { s with linkLossTime := loss, stallLimit := stall }
  let s2 := s1.trunkExpiry .a
  let s3 := s2.trunkExpiry .b
  let s4 := s3.chainLinkExpiry
  obtain ⟨l2, -⟩ := (trunkExpiry_kept (i := .chainLossOfSignal) s1 .a).links (by simp)
  obtain ⟨l3, -⟩ := (trunkExpiry_kept (i := .chainLossOfSignal) s2 .b).links (by simp)
  obtain ⟨l4, -⟩ := (chainLinkExpiry_kept (i := .chainLossOfSignal) s3).links (by simp)
  obtain ⟨l5, k5⟩ := (stallTimerExpiry_kept (i := .chainLossOfSignal) s4).links (by simp)
  have limit2 : s2.linkLossNs = s1.linkLossNs := by rw [State.linkLossNs, l2, State.linkLossNs]
  have limit3 : s3.linkLossNs = s1.linkLossNs := by rw [State.linkLossNs, l3, ← State.linkLossNs, limit2]
  have limit5 : s4.stallTimerExpiry.linkLossNs = s1.linkLossNs := by rw [State.linkLossNs, l5, l4, ← State.linkLossNs, limit3]
  have stallLimit : s4.stallTimerExpiry.stallNs = s4.stallNs := by rw [State.stallNs, k5, State.stallNs]
  have ports2 := trunkExpiry_ports s1 .a
  have ports3 := trunkExpiry_ports s2 .b
  have ports4 := chainLinkExpiry_ports s3
  have ports5 := stallTimerExpiry_ports s4
  have okA : LinkTimerOk s1.linkLossNs (s2.trunk .a).link (s2.trunk .a).timer := trunkExpiry_timerOk s1 .a (htrunk .a).2
  have okB : LinkTimerOk s2.linkLossNs (s3.trunk .b).link (s3.trunk .b).timer :=
    trunkExpiry_timerOk s2 .b ((ports2.trunk .b).link.running (htrunk .b).2)
  have okC : LinkTimerOk s3.linkLossNs s4.chain.link s4.chain.timer :=
    chainLinkExpiry_timerOk s3 ((ports2.comp ports3).chain.link.running hchain.2)
  obtain ⟨hold2, stall2⟩ := (trunkExpiry_untouched (i := .lossOfSignalIndication .a) rfl s1 .a).stall rfl
  obtain ⟨hold3, stall3⟩ := (trunkExpiry_untouched (i := .lossOfSignalIndication .a) rfl s2 .b).stall rfl
  obtain ⟨hold4, stall4⟩ := (chainLinkExpiry_untouched (i := .chainLossOfSignal) rfl s3).stall rfl
  have okStall := stallTimerExpiry_timerOk s4 (by rw [stall4, stall3, stall2, hold4, hold3, hold2]; exact hstall.2)
  rw [limit2] at okB
  rw [limit3] at okC
  rw [← stallLimit] at okStall
  refine (timerInv_iff s4.stallTimerExpiry).2 ⟨fun p => ?_, ?_, okStall, ?_, fun slot st h => ?_⟩
  case refine_1 =>
    rw [limit5]
    cases p
    · exact okA.moves (((ports3.comp ports4).comp ports5).trunk .a).link
    · exact okB.moves ((ports4.comp ports5).trunk .b).link
  case refine_2 =>
    rw [limit5]
    exact okC.moves ports5.chain.link
  case refine_3 => exact (withLinks_untouched s loss stall).clock rfl ▸ href
  case refine_4 =>
    obtain ⟨a, ha, hab⟩ := (withLinks_stations s loss stall).listed slot st h
    exact hab.timer (hst slot a ha)

theorem RefClock.timersOk_reset : RefClock.reset.TimersOk :=
  ⟨⟨timerWithin_stopped _, by simp [RefClock.reset]⟩, ⟨timerWithin_stopped _, by simp [RefClock.reset]⟩⟩

/-- Every command that sets no link limit and is no reset. -/
theorem TimerInv.of_kept (hs : TimerInv s) (hi : ∀ straps, i ≠ .powerOnReset straps) (hl : i ≠ .setLinks) (h : exec i s = .next t) :
    TimerInv t := by
  obtain ⟨htrunk, hchain, hstall, href, hst⟩ := (timerInv_iff s).1 hs
  obtain ⟨loss, stall⟩ := (exec_kept hi h).links hl
  have limit : t.linkLossNs = s.linkLossNs := by rw [State.linkLossNs, loss, State.linkLossNs]
  have stallLimit : t.stallNs = s.stallNs := by rw [State.stallNs, stall, State.stallNs]
  have ports := exec_ports h
  refine (timerInv_iff t).2 ⟨fun p => by rw [limit]; exact (htrunk p).moves (ports.trunk p).link,
    by rw [limit]; exact hchain.moves ports.chain.link, ?_, ?_,
    exec_forall_stations (P := Station.TimerOk) (fun hab ha => ha.changes hab) freshStation_timerOk h hst⟩
  · rw [stallLimit]
    by_cases quiet : setsStall i = false
    · obtain ⟨hold, timer⟩ := (exec_untouched h).stall quiet
      rw [hold, timer]
      exact hstall
    · cases i <;> simp only [setsStall, not_true_eq_false] at quiet
      case powerOnReset straps => exact absurd rfl (hi straps)
      case setLinks => exact absurd rfl hl
      case hold =>
        rcases hold_cases h with rfl | rfl
        · exact hstall
        · exact ⟨timerWithin_started _, by simp⟩
      case release =>
        rcases release_cases h with rfl | rfl
        · exact hstall
        · exact ⟨timerWithin_stopped _, by simp⟩
      case stallTimerExpiry =>
        rw [← Host.Outcome.next.inj h]
        exact stallTimerExpiry_timerOk s hstall.2
  · exact exec_ref (I := RefClock.TimersOk) (fun m hr => hr.markAny m) (fun hr => hr.loseMarks) (fun hstate hr => hr.failed hstate)
      RefClock.timersOk_reset (fun ps hr => RefClock.TimersOk.setReference hr ps) h href

theorem TimerInv.withhold (h : TimerInv s) : TimerInv s.withhold :=
  h.of_kept (i := .withholdSuspension) (by simp) (by simp) rfl

theorem TimerInv.exec (h : exec i s = .next t) (hs : TimerInv s) : TimerInv t := by
  by_cases hp : ∃ straps, i = .powerOnReset straps
  · obtain ⟨straps, rfl⟩ := hp
    exact Host.Outcome.next.inj h ▸ timerInv_poweredOn s straps
  by_cases hl : i = .setLinks
  · subst hl
    rw [exec_directive (i := .setLinks) rfl, Host.Outcome.next.injEq] at h
    refine h ▸ Directive.run_keeps (I := TimerInv)
      (fun _ _ _ hu => ⟨hu.portA, hu.portB, hu.chain, hu.stall, hu.mark, hu.holdover, hu.silence⟩) (fun hw ps => ?_)
      (fun hu => hu.withhold) hs
    rcases setLinksRule_state s.withhold ps with heq | ⟨loss, stall, heq⟩
    · exact heq.symm ▸ hw
    · exact heq.symm ▸ hw.withLinks loss stall
  · exact hs.of_kept (fun straps heq => hp ⟨straps, heq⟩) hl h

/-! ## Running time (R41; log 2) -/

theorem idleTime_le {c : Instr} {n : Nat} (h : (c, n) ∈ s.timedSteps) : s.idleTime ≤ n := by
  have below (l : List Nat) (q n : Nat) (hn : n ∈ l ∨ q ≤ n) : l.foldl min q ≤ n := by
    induction l generalizing q with
    | nil => simpa using hn
    | cons m l ih =>
      refine ih (min q m) ?_
      rcases hn with hn | hn
      · rcases List.mem_cons.1 hn with rfl | hn
        · exact .inr (min_le_right _ _)
        · exact .inl hn
      · exact .inr ((min_le_left _ _).trans hn)
  exact below _ _ n (.inl (List.mem_map.2 ⟨_, h, rfl⟩))

theorem mem_timed (i : Instr) (limit : Nat) {timer : Timer} {e : Nat} (h : timer = some e) : (i, limit - e) ∈ timed i limit timer := by
  simp [timed, h]

/-- A timer that has run no longer than its limit has not when as much time as it lacks has passed. -/
theorem timerWithin_run {limit d : Nat} {timer : Timer} (h : timerWithin limit timer) (hd : ∀ e, timer = some e → d ≤ limit - e) :
    timerWithin limit (runTimer d timer) := fun e he => by
  obtain ⟨x, hx, rfl⟩ := Option.map_eq_some_iff.1 he
  have within := h x hx
  have rest := hd x hx
  omega

theorem isSome_runTimer (d : Nat) (timer : Timer) : (runTimer d timer).isSome = timer.isSome := by cases timer <;> rfl

theorem TimerInv.run (h : TimerInv s) : TimerInv (s.run s.idleTime) := by
  have passes {i : Instr} {limit : Nat} {timer : Timer} (hin : ∀ x ∈ timed i limit timer, x ∈ s.timedSteps)
      (hw : timerWithin limit timer) : timerWithin limit (runTimer s.idleTime timer) :=
    timerWithin_run hw fun e he => idleTime_le (hin _ (mem_timed i limit he))
  have running {timer : Timer} {p : Prop} (hr : timer.isSome = true ↔ p) : (runTimer s.idleTime timer).isSome = true ↔ p := by
    rwa [isSome_runTimer]
  constructor
  case portA => exact ⟨passes (i := .linkLossTimerExpiry .a) (limit := s.linkLossNs) (fun x hx => by simp [State.timedSteps, hx]) h.portA.1, running h.portA.2⟩
  case portB => exact ⟨passes (i := .linkLossTimerExpiry .b) (limit := s.linkLossNs) (fun x hx => by simp [State.timedSteps, hx]) h.portB.1, running h.portB.2⟩
  case chain => exact ⟨passes (i := .chainLinkLossTimerExpiry) (limit := s.linkLossNs) (fun x hx => by simp [State.timedSteps, hx]) h.chain.1, running h.chain.2⟩
  case stall => exact ⟨passes (i := .stallTimerExpiry) (limit := s.stallNs) (fun x hx => by simp [State.timedSteps, hx]) h.stall.1, running h.stall.2⟩
  case mark => exact ⟨passes (i := .markTimerExpiry) (fun x hx => by simp [State.timedSteps, hx]) h.mark.1, running h.mark.2⟩
  case holdover =>
    exact ⟨passes (i := .holdoverTimerExpiry) (limit := s.ref.holdoverNs) (fun x hx => by simp [State.timedSteps, hx]) h.holdover.1, running h.holdover.2⟩
  case silence =>
    intro slot b hb
    obtain ⟨a, ha, rfl⟩ := mem_stations_run hb
    obtain ⟨hw, hr⟩ := h.silence slot a ha
    refine ⟨passes (i := .silenceTimerExpiry slot) (limit := a.silenceNs) (fun x hx => ?_) hw, running hr⟩
    simp only [State.timedSteps, List.mem_append, List.mem_flatMap]
    exact .inr ⟨_, ha, hx⟩

/-- Settles O54: no idle step is longer than the least time that a running timer lacks to its limit. -/
theorem timersRunInTheirStates : Obligations.TimersRunInTheirStates := fun _ _ hs h =>
  step_keeps (I := TimerInv) (fun _ _ hu => ⟨hu.portA, hu.portB, hu.chain, hu.stall, hu.mark, hu.holdover, hu.silence⟩)
    (fun _ hu => hu.run) (fun _ _ _ hv hu => hu.exec hv) hs h

/-! ## Counters -/

theorem counterInv_iff (s : State) : CounterInv s ↔
    (∀ p, (s.trunk p).countersFit) ∧ (∀ c ∈ s.chain.counterList, c ≤ counterMax) ∧ s.globals.Fit ∧
      ∀ slot st, (slot, st) ∈ s.stations → st.CountersFit :=
  ⟨fun h => ⟨fun p => by cases p <;> [exact h.portA; exact h.portB], h.chain, h.globals, h.stations⟩,
    fun ⟨ht, hc, hg, hst⟩ => ⟨ht .a, ht .b, hc, hg, hst⟩⟩

theorem Station.CountersFit.changes {a b : Station} (ha : a.CountersFit) (h : a.Changes s b) : b.CountersFit := by
  cases h with
  | evolves h => exact h.counters ha
  | configured c word order hfit =>
    rw [CountersFit, forall_mem_counterList] at ha ⊢
    refine ⟨ha.1, fun i => ?_⟩
    rw [get_set]
    split
    · exact ha.2 c
    · exact ha.2 i
  | staged => exact ha
  | committed => exact ha
  | discarded => exact ha

theorem freshStation_countersFit (code : Nat) (mask : RouteMask) (limit : Nat) : (freshStation code mask limit).CountersFit :=
  fun c hc => freshStation_counters code mask limit c hc ▸ Nat.zero_le _

theorem globals_fit_iff (g : GlobalCounters) : g.Fit ↔
    g.packetsTaken ≤ counterMax ∧ g.managementDrops ≤ counterMax ∧ g.malformedPackets ≤ counterMax ∧
      g.receiveErrors ≤ counterMax ∧ g.epochsDropped ≤ counterMax ∧ g.noticesSent ≤ counterMax := by
  simp [GlobalCounters.Fit, GlobalCounters.counterList]

theorem globals_reset_fit : GlobalCounters.reset.Fit := (counterInv_poweredOn .reset 0).globals

theorem stallTimerExpiry_globals (h : s.globals.Fit) : s.stallTimerExpiry.globals.Fit := by
  rcases stallTimerExpiry_cases s with heq | ⟨-, heq⟩ <;> rw [heq]
  · exact h
  · exact (stallExpiry_emission s).globals h

/-- The global counters through a directive's own rule. -/
theorem rule_globals {d : Directive} (hd : directiveOf i = some d) (ps : List Byte) (h : s.globals.Fit) :
    (d.rule s ps).state.globals.Fit := by
  by_cases hi : setsGlobals i = false
  · exact (rule_untouched hd s ps).globals hi ▸ h
  cases i <;> simp only [setsGlobals, not_true_eq_false] at hi
  all_goals simp only [directiveOf, Option.some.injEq, reduceCtorEq] at hd
  all_goals subst hd; dsimp only
  case setLinks =>
    rcases setLinksRule_state s ps with heq | ⟨loss, stall, heq⟩ <;> rw [heq]
    · exact h
    · refine stallTimerExpiry_globals ?_
      rw [(chainLinkExpiry_untouched (i := .chainLossOfSignal) rfl _).globals rfl,
        (trunkExpiry_untouched (i := .lossOfSignalIndication .a) rfl _ .b).globals rfl,
        (trunkExpiry_untouched (i := .lossOfSignalIndication .a) rfl _ .a).globals rfl]
      exact h
  case readCounters =>
    rcases readCountersRule_state s ps with heq | ⟨p, heq⟩ | heq | ⟨_, _, -, heq⟩ | heq <;> rw [heq]
    · exact h
    · simpa using h
    · exact h
    · exact h
    · exact globals_reset_fit
  case restart => exact globals_reset_fit

theorem exec_globals (h : exec i s = .next t) (hs : s.globals.Fit) : t.globals.Fit := by
  refine exec_keeps (I := fun u => u.globals.Fit) (fun _ _ _ hu => hu) (fun hu => by rwa [State.withhold_globals])
    (fun i d hd u ps _ hu => rule_globals hd ps hu) (fun i hd u v hv hu => ?_) i h hs
  by_cases hi : setsGlobals i = false
  · exact (exec_untouched hv).globals hi ▸ hu
  cases i <;> simp only [setsGlobals, not_true_eq_false, directiveOf, reduceCtorEq] at hi hd
  case powerOnReset => exact Host.Outcome.next.inj hv ▸ globals_reset_fit
  case stallTimerExpiry => exact Host.Outcome.next.inj hv ▸ stallTimerExpiry_globals hu
  case fragmentCompletion =>
    rcases fragmentCompletion_cases hv with rfl | rfl
    · exact hu
    · exact (completeFragment_emission { u with transmitting := none }).globals hu
  case directivePacketArrival bs =>
    rcases directivePacketArrival_cases hv with rfl | rfl | rfl
    · simp only [globals_fit_iff, bump_le] at hu ⊢
      tauto
    · exact hu
    · rcases offerInbound_cases { u with chain := u.routeForward bs } bs with ⟨-, heq⟩ | heq <;> rw [heq] <;>
        simp only [globals_fit_iff, bump_le] at hu ⊢ <;> tauto
  case noticeCompletion =>
    rcases noticeCompletion_cases hv with rfl | rfl
    · exact hu
    · simp only [globals_fit_iff, bump_le] at hu ⊢
      tauto
  case beginPacket =>
    rcases beginPacket_cases hv with rfl | ⟨-, rfl | ⟨-, ⟨_, rfl⟩ | ⟨_, rfl⟩ | ⟨_, -, rfl⟩⟩⟩
    · exact hu
    · exact hu
    · simp only [State.placeAnswer, globals_fit_iff, bump_le] at hu ⊢
      tauto
    · exact hu
    · exact hu

theorem CounterInv.exec (h : exec i s = .next t) (hs : CounterInv s) : CounterInv t := by
  obtain ⟨htrunk, hchain, hglobals, hst⟩ := (counterInv_iff s).1 hs
  have ports := exec_ports h
  exact (counterInv_iff t).2 ⟨fun p => (ports.trunk p).counters (htrunk p), ports.chain.counters hchain, exec_globals h hglobals,
    exec_forall_stations (P := Station.CountersFit) (fun hab ha => ha.changes hab) freshStation_countersFit h hst⟩

/-! ## Capacities -/

/-- What the capacities ask of the agent and its queues (R160, R161). -/
structure AgentFits (s : State) : Prop where
  inbound  : s.inbound.length ≤ Config.inboundDepth
  answers  : s.answerQueue.length ≤ Config.answerDepth
  reserved : s.agent.progress.isSome = true → s.answerQueue.length < Config.answerDepth
  work     : ∀ p, s.agent.progress = some p → p.todo ≠ []

theorem AgentFits.of_eq (h : AgentFits s) (heq : t.agent = s.agent ∧ t.inbound = s.inbound ∧ t.answerQueue = s.answerQueue) :
    AgentFits t := by
  obtain ⟨ha, hb, hq⟩ := heq
  exact ⟨hb ▸ h.inbound, hq ▸ h.answers, by rw [ha, hq]; exact h.reserved, by rw [ha]; exact h.work⟩

/-- The answer takes its reserved place, and the agent ends the packet (R166). -/
theorem AgentFits.placeAnswer (h : AgentFits s) (hroom : s.answerQueue.length < Config.answerDepth) (a : List Byte) :
    AgentFits (s.placeAnswer a) := by
  have ended : (s.placeAnswer a).agent.progress = none := by
    unfold State.placeAnswer
    simp only
    split <;> rfl
  refine ⟨?_, ?_, by rw [ended]; nofun, by rw [ended]; nofun⟩
  · have bound := h.inbound
    simp only [State.placeAnswer, List.length_tail]
    omega
  · simpa [State.placeAnswer] using hroom

theorem AgentFits.finishEntry (h : AgentFits s) (hroom : s.answerQueue.length < Config.answerDepth) (p : Progress) (e : Entry)
    (rest : List Entry) (o : DirOutcome) (data : List Byte) : AgentFits (s.finishEntry p e rest o data) := by
  unfold State.finishEntry
  simp only
  split
  · exact h.placeAnswer hroom _
  · split
    · exact h.placeAnswer hroom _
    next hmore =>
      refine ⟨h.inbound, h.answers, fun _ => hroom, fun q hq => ?_⟩
      cases hq
      exact hmore

theorem AgentFits.directive (h : AgentFits s) {d : Directive} (hd : directiveOf i = some d) : AgentFits (d.run s) := by
  unfold Directive.run
  rcases runDirective_cases d.code d.length d.waits d.rule s with heq | ⟨p, e, rest, hp, ht, -, hrun⟩
  · rwa [heq]
  have room : s.answerQueue.length < Config.answerDepth := h.reserved (by rw [hp]; rfl)
  rcases hrun with ⟨-, heq⟩ | ⟨-, -, heq⟩ | ⟨-, -, heq⟩ <;> rw [heq]
  · exact h.finishEntry room _ _ _ _ _
  · exact ⟨h.inbound, h.answers, fun _ => room, fun q hq => by cases hq; simp [ht]⟩
  · obtain ⟨ha, hb, hq⟩ := rule_agent hd s.withhold e.params
    rw [State.withhold_agent] at ha
    rw [State.withhold_inbound] at hb
    rw [State.withhold_answerQueue] at hq
    exact (h.of_eq ⟨ha, hb, hq⟩).finishEntry (hq ▸ room) _ _ _ _ _

theorem AgentFits.exec (h : exec i s = .next t) (hs : AgentFits s) : AgentFits t := by
  cases hd : directiveOf i with
  | some d =>
    rw [exec_directive hd, Host.Outcome.next.injEq] at h
    exact h ▸ hs.directive hd
  | none =>
    by_cases hi : setsAgent i = false
    · exact hs.of_eq ((exec_untouched h).agent hi)
    cases i <;> simp only [setsAgent, directiveOf, Option.isSome_none, not_true_eq_false, reduceCtorEq] at hi hd
    case powerOnReset straps =>
      have reset := capacityInv_poweredOn s straps
      exact Host.Outcome.next.inj h ▸ ⟨reset.inbound, reset.answers, reset.reserved, reset.work⟩
    case directivePacketArrival bs =>
      rcases directivePacketArrival_cases h with rfl | rfl | rfl
      · exact hs.of_eq ⟨rfl, rfl, rfl⟩
      · exact hs.of_eq ⟨rfl, rfl, rfl⟩
      · rcases offerInbound_cases { s with chain := s.routeForward bs } bs with ⟨hroom, heq⟩ | heq <;> rw [heq]
        · have same : (if s.agent = .idle ∧ Config.answerDepth ≤ s.answerQueue.length then AgentState.waiting else s.agent).progress =
              s.agent.progress := by
            split
            next hidle => rw [hidle.1]; rfl
            next => rfl
          exact ⟨by simpa using hroom, hs.answers, by simpa only [same] using hs.reserved, by simpa only [same] using hs.work⟩
        · exact hs.of_eq (by simp)
    case answerCompletion =>
      rcases answerCompletion_cases h with rfl | rfl
      · exact hs
      · have bound := hs.answers
        refine ⟨hs.inbound, ?_, fun hp => ?_, hs.work⟩
        · simp only [List.length_tail]
          omega
        · have room := hs.reserved hp
          simp only [List.length_tail]
          omega
    case beginPacket =>
      rcases beginPacket_cases h with rfl | ⟨-, rfl | ⟨hroom, ⟨a, rfl⟩ | ⟨a, rfl⟩ | ⟨p, hwork, rfl⟩⟩⟩
      · exact hs
      · exact ⟨hs.inbound, hs.answers, nofun, nofun⟩
      · refine AgentFits.placeAnswer ?_ ?_ a
        · exact hs.of_eq ⟨rfl, rfl, rfl⟩
        · exact hroom
      · exact hs.placeAnswer hroom a
      · exact ⟨hs.inbound, hs.answers, fun _ => hroom, fun q hq => by cases hq; exact hwork⟩
    case unknown =>
      rcases unknown_cases h with rfl | ⟨p, e, rest, hp, -, rfl⟩
      · exact hs
      · exact hs.finishEntry (hs.reserved (by rw [hp]; rfl)) _ _ _ _ _

theorem CapacityInv.exec (h : exec i s = .next t) (hs : CapacityInv s) : CapacityInv t := by
  have ports := exec_ports h
  have agent := AgentFits.exec h ⟨hs.inbound, hs.answers, hs.reserved, hs.work⟩
  exact ⟨(ports.trunk .a).fifo hs.fifoA, (ports.trunk .b).fifo hs.fifoB, agent.inbound, agent.answers, agent.reserved, agent.work,
    ports.chain.buffer hs.buffer, ports.chain.forward hs.forward⟩

/-! ## The sample memory -/

theorem placeSamples_memory_wf (p : InHand) (n : Nat) (vs : List Sample) (gs : Nat) (s : State) (h : Memory.wf s.memory = true) :
    Memory.wf (placeSamples p n gs vs s).memory = true := by
  have written (u : State) (hu : Memory.wf u.memory = true) (j slot : Nat) (page : PageNo) (v : Sample) :
      Memory.wf (u.writeSample j p slot page v).memory = true := by
    rcases (writeSample_frame u j p slot page v).2 with heq | heq <;> rw [heq]
    · exact hu
    · exact memory_wf_writeWord _ _ hu
  have quiet (u v : State) (hu : Memory.wf u.memory = true) (frame : StoreFrameMem u v) : Memory.wf v.memory = true :=
    frame.memory ▸ hu
  have overlap (u : State) (j : Nat) (f : Station → Station) : StoreFrameMem u ((u.markOverlap j p).modifyStation p.slot f) :=
    (modifyRecord_frame u j _).comp (modifyStation_frame _ _ _)
  have one (u : State) (gs : Nat) (v : Sample) (hu : Memory.wf u.memory = true) : Memory.wf (u.placeSample p n gs v).memory = true := by
    unfold State.placeSample State.placeInRecord
    simp only
    split
    · exact quiet _ _ hu (modifyStation_frame u _ _)
    · split
      · exact quiet _ _ hu (modifyStation_frame u _ _)
      · split
        · exact quiet _ _ hu (modifyStation_frame u _ _)
        · split
          · split
            · exact quiet _ _ hu (overlap u _ _)
            · exact written u hu _ _ _ _
          · split
            · exact quiet _ _ hu (overlap u _ _)
            · exact written _ (quiet _ _ hu (takePage_frame u)) _ _ _ _
          · exact quiet _ _ hu ((enterStarved_frame u).comp (modifyStation_frame _ _ _))
          · exact quiet _ _ hu (modifyStation_frame u _ _)
  induction vs generalizing gs s with
  | nil => exact h
  | cons v vs ih => exact ih _ _ (one s gs v h)

theorem exec_memory_wf (h : exec i s = .next t) (hs : Memory.wf s.memory = true) : Memory.wf t.memory = true := by
  by_cases hp : ∃ straps, i = .powerOnReset straps
  · obtain ⟨straps, rfl⟩ := hp
    exact Host.Outcome.next.inj h ▸ memory_wf_reset
  by_cases hi : i = .handOff
  · subst hi
    rcases handOff_cases h with rfl | ⟨p, -, ⟨-, rfl⟩ | ⟨-, rfl⟩⟩
    · exact hs
    · exact placeSamples_memory_wf p _ _ _ s hs
    · simpa using hs
  · exact (exec_kept (fun straps heq => hp ⟨straps, heq⟩) h).memory hi ▸ hs

/-- Settles O53: each part through every command, `PortsEvolve` for the ports, `AgentFits` for the agent's queues. -/
theorem queuesCountersAndMemoryStaySound : Obligations.QueuesCountersAndMemoryStaySound := by
  refine ⟨fun _ _ => rfl, fun s t h => ⟨fun hs => ?_, fun hs => ?_, fun hs => ?_⟩⟩
  · refine step_keeps (I := CapacityInv) (fun _ _ hu => ⟨hu.fifoA, hu.fifoB, hu.inbound, hu.answers, hu.reserved, hu.work, hu.buffer,
      hu.forward⟩) (fun _ hu => ?_) (fun _ _ _ hv hu => hu.exec hv) hs h
    exact ⟨hu.fifoA, hu.fifoB, hu.inbound, hu.answers, hu.reserved, hu.work, hu.buffer, hu.forward⟩
  · refine step_keeps (I := CounterInv) (fun _ _ hu => ⟨hu.portA, hu.portB, hu.chain, hu.globals, hu.stations⟩) (fun _ hu => ?_)
      (fun _ _ _ hv hu => hu.exec hv) hs h
    refine ⟨hu.portA, hu.portB, hu.chain, hu.globals, fun slot b hb => ?_⟩
    obtain ⟨a, ha, rfl⟩ := mem_stations_run hb
    exact hu.stations slot a ha
  · exact step_keeps (I := fun u => Memory.wf u.memory = true) (fun _ _ hu => hu) (fun _ hu => hu)
      (fun _ _ _ hv hu => exec_memory_wf hv hu) hs h

end Sys2Proof.Machine
end

section
/-! Where the pages are (R85, R88): what each operation of the Epoch Store does to the free-page list and to the page entries, and that
every page stays in exactly one place. -/

namespace Sys2Proof.Machine

variable {i : Instr} {s t u : State}

/-! ## Sparse data as lists -/

theorem assocSorted_iff_pairwise {α : Type} (l : Assoc α) : assocSorted l = true ↔ l.Pairwise (fun p q => p.1 < q.1) := by
  induction l with
  | nil => simp [assocSorted]
  | cons p t ih =>
    obtain ⟨j, w⟩ := p
    simp [assocSorted, ih]

theorem assocGet_none_of_lt {α : Type} {l : Assoc α} {k : Nat} (h : ∀ p ∈ l, k < p.1) : assocGet l k = none := by
  cases hg : assocGet l k with
  | none => rfl
  | some v => exact absurd (h _ (mem_of_assocGet hg)) (Nat.lt_irrefl k)

theorem assocErase_of_free {α : Type} {l : Assoc α} {k : Nat} (h : assocGet l k = none) : assocErase l k = l := by
  induction l with
  | nil => rfl
  | cons p t ih =>
    obtain ⟨j, w⟩ := p
    by_cases hk : k = j
    · simp [assocGet, hk] at h
    · rw [assocErase, if_neg hk, ih (by simpa [assocGet, hk] using h)]

/-- A listed key stands once among sorted data. -/
theorem perm_cons_assocErase {α : Type} {l : Assoc α} {k : Nat} {v : α} (hs : assocSorted l = true) (h : assocGet l k = some v) :
    l.Perm ((k, v) :: assocErase l k) := by
  induction l with
  | nil => cases h
  | cons p t ih =>
    obtain ⟨j, w⟩ := p
    rw [assocSorted_iff_pairwise, List.pairwise_cons, ← assocSorted_iff_pairwise] at hs
    by_cases hk : k = j
    · subst hk
      rw [assocGet, if_pos rfl, Option.some.injEq] at h
      rw [assocErase, if_pos rfl, assocErase_of_free (assocGet_none_of_lt hs.1), h]
    · rw [assocGet, if_neg hk] at h
      rw [assocErase, if_neg hk]
      exact ((ih hs.2 h).cons _).trans (.swap _ _ _)

theorem assocPut_perm {α : Type} {l : Assoc α} (hs : assocSorted l = true) (k : Nat) (v : α) :
    (assocPut l k v).Perm ((k, v) :: assocErase l k) := by
  have erased : assocErase (assocPut l k v) k = assocErase l k := by
    induction l with
    | nil => simp [assocPut, assocErase]
    | cons p t ih =>
      obtain ⟨j, w⟩ := p
      rw [assocSorted_iff_pairwise, List.pairwise_cons, ← assocSorted_iff_pairwise] at hs
      unfold assocPut
      split
      · simp [assocErase]
      · split
        next hk => simp [assocErase, hk]
        next hk => simp [assocErase, hk, ih hs.2]
  exact erased ▸ perm_cons_assocErase (assocSorted_put k v hs) (assocGet_put_same l k v)

/-! ## The pages of a record -/

/-- The segments of a record, and the page entries of each, are listed under rising keys. -/
structure EpochRecord.Sorted (r : EpochRecord) : Prop where
  segments : assocSorted r.segments = true
  entries  : ∀ k g, (k, g) ∈ r.segments → assocSorted g.pages = true

/-- The pages that the segments other than one name. -/
def EpochRecord.otherPages (r : EpochRecord) (slot : Nat) (c : Fin 4) : List PageNo :=
  (assocErase r.segments (segmentKey slot c)).flatMap (fun p => p.2.pageList)

theorem EpochRecord.Sorted.segment {r : EpochRecord} (h : r.Sorted) (slot : Nat) (c : Fin 4) :
    assocSorted (r.segment slot c).pages = true := by
  unfold EpochRecord.segment
  cases hg : assocGet r.segments (segmentKey slot c) with
  | none => rfl
  | some g => exact h.entries _ g (mem_of_assocGet hg)

theorem EpochRecord.Sorted.putSegment {r : EpochRecord} (h : r.Sorted) (slot : Nat) (c : Fin 4) {g : Segment}
    (hg : assocSorted g.pages = true) : (r.putSegment slot c g).Sorted := by
  unfold EpochRecord.putSegment
  split
  · refine ⟨assocSorted_erase _ h.segments, fun k g' hg' => h.entries k g' (mem_assocErase hg').1⟩
  · refine ⟨assocSorted_put _ _ h.segments, fun k g' hg' => ?_⟩
    rcases mem_assocPut hg' with heq | hin
    · cases heq
      exact hg
    · exact h.entries k g' hin

theorem EpochRecord.Sorted.pageList {r : EpochRecord} (h : r.Sorted) (slot : Nat) (c : Fin 4) :
    r.pageList.Perm ((r.segment slot c).pageList ++ r.otherPages slot c) := by
  unfold EpochRecord.segment EpochRecord.otherPages EpochRecord.pageList
  cases hg : assocGet r.segments (segmentKey slot c) with
  | none => rw [assocErase_of_free hg]; exact .refl _
  | some g => exact (perm_cons_assocErase h.segments hg).flatMap_right _

theorem EpochRecord.Sorted.pageList_putSegment {r : EpochRecord} (h : r.Sorted) (slot : Nat) (c : Fin 4) (g : Segment) :
    (r.putSegment slot c g).pageList.Perm (g.pageList ++ r.otherPages slot c) := by
  unfold EpochRecord.putSegment EpochRecord.otherPages EpochRecord.pageList
  split
  next hempty =>
    rw [hempty]
    exact .refl _
  next => exact (assocPut_perm h.segments _ g).flatMap_right _

/-! ## An epoch as it is opened (R78) -/

theorem mem_openingSegments {l slot : Nat} {st : Station} {k : Nat} {g : Segment} :
    (k, g) ∈ openingSegments l slot st ↔
      ∃ c, k = segmentKey slot c ∧ nOf (st.channels.get c).rate l ≠ 0 ∧ g = Segment.empty (nOf (st.channels.get c).rate l) := by
  have every (c : Fin 4) : c ∈ ([0, 1, 2, 3] : List (Fin 4)) := by fin_cases c <;> decide
  simp only [openingSegments, List.mem_filterMap, every, true_and]
  refine exists_congr fun c => ?_
  split
  next h => simp [h]
  next h => simp [h, eq_comm]

theorem openingSegments_sorted (l slot : Nat) (st : Station) :
    (openingSegments l slot st).Pairwise (fun p q => p.1 < q.1) := by
  refine List.Pairwise.filterMap _ (fun c d hcd p hp q hq => ?_) (show ([0, 1, 2, 3] : List (Fin 4)).Pairwise (· < ·) by decide)
  simp only [Option.ite_none_left_eq_some, Option.some.injEq] at hp hq
  rw [← hp.2, ← hq.2]
  exact Nat.add_lt_add_left hcd _

theorem mem_openedSegments {s : State} {e k : Nat} {g : Segment} :
    (k, g) ∈ (openedRecord s e).segments ↔ ∃ slot st c, (slot, st) ∈ s.stations ∧ k = segmentKey slot c ∧
      nOf (st.channels.get c).rate s.plan.epochLength ≠ 0 ∧ g = Segment.empty (nOf (st.channels.get c).rate s.plan.epochLength) := by
  simp only [openedRecord, List.mem_flatMap, mem_openingSegments, Prod.exists]
  grind

/-- The segments of an opened epoch are listed in ascending table slot, then channel. -/
theorem openedRecord_sorted (hs : assocSorted s.stations = true) (e : Nat) : (openedRecord s e).Sorted := by
  rw [assocSorted_iff_pairwise] at hs
  refine ⟨(assocSorted_iff_pairwise _).2 (List.pairwise_flatMap.2 ⟨fun p _ => openingSegments_sorted _ _ _, hs.imp ?_⟩), ?_⟩
  · rintro ⟨slot, st⟩ ⟨slot', st'⟩ hlt ⟨k, g⟩ hk ⟨k', g'⟩ hk'
    obtain ⟨c, rfl, -, -⟩ := mem_openingSegments.1 hk
    obtain ⟨c', rfl, -, -⟩ := mem_openingSegments.1 hk'
    simp only [segmentKey] at hlt ⊢
    omega
  · intro k g hg
    obtain ⟨_, _, _, -, -, -, rfl⟩ := mem_openedSegments.1 hg
    rfl

theorem openedRecord_pageList (s : State) (e : Nat) : (openedRecord s e).pageList = [] := by
  refine List.flatMap_eq_nil_iff.2 fun ⟨k, g⟩ hg => ?_
  obtain ⟨_, _, _, -, -, -, rfl⟩ := mem_openedSegments.1 hg
  rfl

/-! ## What an operation does to the pages -/

/-- The station records, the epoch records, their segments and the page entries are listed under rising keys. -/
structure PagesSorted (s : State) : Prop where
  stations : assocSorted s.stations = true
  records  : assocSorted s.records = true
  segments : ∀ j r, (j, r) ∈ s.records → r.Sorted

/-- Every page is where it was, or has moved between the free-page list and the page entries. -/
structure PagesKept (s t : State) : Prop where
  sorted : PagesSorted s → PagesSorted t
  perm   : PagesSorted s → (t.freePages ++ t.namedPages).Perm (s.freePages ++ s.namedPages)

theorem pageInv_iff (s : State) :
    PageInv s ↔ PagesSorted s ∧ (s.freePages ++ s.namedPages).Perm (pagesFrom Config.pages 0) :=
  ⟨fun h => ⟨⟨h.stationsSorted, h.recordsSorted, fun j r hr => ⟨h.segmentsSorted j r hr, h.entriesSorted j r hr⟩⟩, h.partition⟩,
    fun ⟨h, hp⟩ => ⟨h.stations, h.records, fun j r hr => (h.segments j r hr).segments, fun j r hr => (h.segments j r hr).entries, hp⟩⟩

theorem PageInv.kept (h : PageInv s) (hk : PagesKept s t) : PageInv t := by
  obtain ⟨hs, hp⟩ := (pageInv_iff s).1 h
  exact (pageInv_iff t).2 ⟨hk.sorted hs, (hk.perm hs).trans hp⟩

theorem PagesKept.rfl' : PagesKept s s := ⟨id, fun _ => .refl _⟩

theorem PagesKept.comp (h : PagesKept s t) (k : PagesKept t u) : PagesKept s u :=
  ⟨fun hs => k.sorted (h.sorted hs), fun hs => (k.perm (h.sorted hs)).trans (h.perm hs)⟩

theorem PagesKept.foldl {α : Type} {f : State → α → State} (h : ∀ s a, PagesKept s (f s a)) (l : List α) (s : State) :
    PagesKept s (l.foldl f s) := by
  induction l generalizing s with
  | nil => exact .rfl'
  | cons a t ih => exact (h s a).comp (ih (f s a))

/-- Neither the records nor the free pages change. -/
theorem PagesKept.of_stations (hst : assocSorted s.stations = true → assocSorted t.stations = true) (hr : t.records = s.records)
    (hp : t.freePages = s.freePages) : PagesKept s t where
  sorted := fun h => ⟨hst h.stations, hr ▸ h.records, hr ▸ h.segments⟩
  perm := fun _ => by rw [hp, State.namedPages, State.namedPages, hr]

theorem PagesKept.of_eq (hst : t.stations = s.stations) (hr : t.records = s.records) (hp : t.freePages = s.freePages) :
    PagesKept s t := .of_stations (fun h => hst ▸ h) hr hp

/-- One record replaced, its pages moving between its entries and the free-page list. -/
theorem PagesKept.replace {j : Nat} {r r' : EpochRecord} (hr : assocGet s.records j = some r)
    (hst : assocSorted s.stations = true → assocSorted t.stations = true) (ht : t.records = assocPut s.records j r')
    (hsorted : r.Sorted → r'.Sorted) (hpages : r.Sorted → (t.freePages ++ r'.pageList).Perm (s.freePages ++ r.pageList)) :
    PagesKept s t where
  sorted := fun h => by
    refine ⟨hst h.stations, ht ▸ assocSorted_put j r' h.records, fun k q hq => ?_⟩
    rcases mem_assocPut (ht ▸ hq) with heq | hin
    · cases heq
      exact hsorted (h.segments j r (mem_of_assocGet hr))
    · exact h.segments k q hin
  perm := fun h => by
    let rest := (assocErase s.records j).flatMap (fun p => p.2.pageList)
    have after : t.namedPages.Perm (r'.pageList ++ rest) := by
      rw [State.namedPages, ht]
      exact (assocPut_perm h.records j r').flatMap_right _
    have before : s.namedPages.Perm (r.pageList ++ rest) := (perm_cons_assocErase h.records hr).flatMap_right _
    have moved := hpages (h.segments j r (mem_of_assocGet hr))
    calc List.Perm (t.freePages ++ t.namedPages) (t.freePages ++ (r'.pageList ++ rest)) := after.append_left _
      List.Perm _ (t.freePages ++ r'.pageList ++ rest) := .of_eq (List.append_assoc _ _ _).symm
      List.Perm _ (s.freePages ++ r.pageList ++ rest) := moved.append_right _
      List.Perm _ (s.freePages ++ (r.pageList ++ rest)) := .of_eq (List.append_assoc _ _ _)
      List.Perm _ (s.freePages ++ s.namedPages) := before.symm.append_left _

/-- One record replaced by one with the same segments. -/
theorem PagesKept.replaceSame {j : Nat} {r r' : EpochRecord} (hr : assocGet s.records j = some r)
    (hst : assocSorted s.stations = true → assocSorted t.stations = true) (ht : t.records = assocPut s.records j r')
    (hp : t.freePages = s.freePages) (hseg : r'.segments = r.segments) : PagesKept s t :=
  .replace hr hst ht (fun h => ⟨hseg ▸ h.segments, hseg ▸ h.entries⟩)
    (fun _ => by rw [hp, EpochRecord.pageList, EpochRecord.pageList, hseg])

/-- The pages of one segment returned, and the segment given none (R5, R19, R136). -/
theorem PagesKept.returnSegment {j slot : Nat} {c : Fin 4} {r : EpochRecord} {g : Segment} (hr : assocGet s.records j = some r)
    (hg : g.pages = []) : PagesKept s { s with
      records := assocPut s.records j (r.putSegment slot c g), freePages := s.freePages ++ (r.segment slot c).pageList } := by
  refine .replace hr id rfl (fun h => h.putSegment slot c (by rw [hg]; rfl)) fun h => ?_
  have none : g.pageList = [] := by rw [Segment.pageList, hg]; rfl
  have after := h.pageList_putSegment slot c g
  rw [none, List.nil_append] at after
  calc List.Perm (s.freePages ++ (r.segment slot c).pageList ++ (r.putSegment slot c g).pageList)
        (s.freePages ++ (r.segment slot c).pageList ++ r.otherPages slot c) := after.append_left _
    List.Perm _ (s.freePages ++ ((r.segment slot c).pageList ++ r.otherPages slot c)) := .of_eq (List.append_assoc _ _ _)
    List.Perm _ (s.freePages ++ r.pageList) := (h.pageList slot c).symm.append_left _

theorem dropRecord_pages (s : State) (j : Nat) : PagesKept s (s.dropRecord j) := by
  cases hr : assocGet s.records j with
  | none =>
    rw [State.dropRecord, hr]
    exact .rfl'
  | some r =>
    rw [dropRecord_of_present hr]
    refine ⟨fun h => ⟨h.stations, assocSorted_erase j h.records, fun k q hq => h.segments k q (mem_assocErase hq).1⟩, fun h => ?_⟩
    have before : s.namedPages.Perm (r.pageList ++ (assocErase s.records j).flatMap (fun p => p.2.pageList)) :=
      (perm_cons_assocErase h.records hr).flatMap_right _
    exact (List.Perm.of_eq (List.append_assoc _ _ _)).trans (before.symm.append_left _)

theorem openEpoch_pages {j : Nat} (hfree : assocGet s.records j = none) (e : Nat) : PagesKept s (s.openEpoch j e) where
  sorted := fun h => by
    refine ⟨h.stations, assocSorted_put j _ h.records, fun k q hq => ?_⟩
    rcases mem_assocPut hq with heq | hin
    · cases heq
      exact openedRecord_sorted h.stations e
    · exact h.segments k q hin
  perm := fun _ => by
    have named : (s.openEpoch j e).namedPages.Perm ((openedRecord s e).pageList ++ s.namedPages) :=
      (openEpoch_records_perm hfree e).flatMap_right _
    rw [openedRecord_pageList, List.nil_append] at named
    exact named.append_left _

theorem raise_pages (s : State) (f : EventFlag) : PagesKept s (s.raise f) := .of_eq (by simp) (by simp) (by simp)

theorem endStarved_pages (s : State) : PagesKept s s.endStarved := .of_eq (by simp) (by simp) (by simp)

theorem openFrontAfterFree_pages (s : State) : PagesKept s s.openFrontAfterFree := by
  unfold State.openFrontAfterFree
  split
  next hfree =>
    split
    · exact openEpoch_pages (freeRecordNo_eq_some hfree).1 _
    · exact .rfl'
  next => exact .rfl'

theorem freeEmitted_pages (s : State) (j : Nat) : PagesKept s (s.freeEmitted j) :=
  ((dropRecord_pages s j).comp (endStarved_pages _)).comp (openFrontAfterFree_pages _)

theorem openFronts_pages (lo k : Nat) (s : State) : PagesKept s (openFronts lo k s) := by
  induction k generalizing s with
  | zero => exact .rfl'
  | succ k ih =>
    unfold openFronts
    split
    · split
      next hfree => exact (openEpoch_pages (freeRecordNo_eq_some hfree).1 _).comp (ih _)
      next => exact raise_pages s _
    · exact .rfl'

theorem emptySegment_pages (s : State) (j slot : Nat) (c : Fin 4) (n : Nat) : PagesKept s (s.emptySegment j slot c n) := by
  cases hr : assocGet s.records j with
  | none =>
    rw [State.emptySegment, hr]
    exact .rfl'
  | some r =>
    rw [emptySegment_of_present hr]
    exact .returnSegment hr rfl

theorem emptyOpen_pages (s : State) (slot : Nat) (cs : List (Fin 4)) (n : Nat) : PagesKept s (s.emptyOpen slot cs n) :=
  (PagesKept.foldl (fun s (p : Nat × EpochRecord) =>
    PagesKept.foldl (fun s c => emptySegment_pages s p.1 slot c n) cs s) _ s).comp (endStarved_pages _)

theorem freeSegmentPages_pages (s : State) (j slot : Nat) (c : Fin 4) : PagesKept s (s.freeSegmentPages j slot c) := by
  unfold State.freeSegmentPages
  split
  next r hr => exact .returnSegment hr rfl
  next => exact .rfl'

theorem freeFragmentPages_pages (s : State) (e : Emission) : PagesKept s (s.freeFragmentPages e) :=
  PagesKept.foldl (fun s slot => PagesKept.foldl (fun s c => freeSegmentPages_pages s e.record slot c) _ s) _ s

theorem dropRecords_pages (s : State) (rs : List (Nat × EpochRecord)) : PagesKept s (s.dropRecords rs) :=
  PagesKept.foldl (fun s (p : Nat × EpochRecord) => dropRecord_pages s p.1) _ s

theorem closeRecord_pages (s : State) (j : Nat) : PagesKept s (s.closeRecord j) := by
  unfold State.closeRecord
  split
  next r hr => exact .replaceSame hr (assocSorted_map _) rfl rfl rfl
  next => exact .rfl'

theorem closeEvaluation_pages (s : State) : PagesKept s s.closeEvaluation := by
  have due : PagesKept s s.closeDue := .foldl (fun s (p : Nat × EpochRecord) => closeRecord_pages s p.1) _ s
  have skipped (u : State) (first : Nat) : PagesKept u (u.skipTo first) := by
    unfold State.skipTo
    split
    · split
      · exact .of_stations (fun h => by simpa using assocSorted_map _ h) (by simp) (by simp)
      · exact .rfl'
    · exact .rfl'
  have opened (u : State) : PagesKept u u.openWindow := by
    unfold State.openWindow
    split
    · exact openFronts_pages _ _ u
    · exact .rfl'
  unfold State.closeEvaluation
  split
  · exact .rfl'
  · exact (due.comp (skipped _ _)).comp (opened _)

theorem countDrop_pages (s : State) : PagesKept s s.countDrop :=
  .of_eq (by simp [State.countDrop]) (by simp [State.countDrop]) (by simp [State.countDrop])

theorem dropHead_pages (s : State) : PagesKept s s.dropHead := by
  unfold State.dropHead
  split
  next j rest _ =>
    have queue : PagesKept s { s with closedQueue := rest } := .of_eq rfl rfl rfl
    exact (queue.comp (freeEmitted_pages _ j)).comp (countDrop_pages _)
  next => exact .rfl'

theorem dropHeads_pages (k : Nat) (s : State) : PagesKept s (dropHeads k s) := by
  induction k generalizing s with
  | zero => exact .rfl'
  | succ k ih => exact (dropHead_pages s).comp (ih _)

theorem PagesKept.withEmitter (h : PagesKept s t) (e : Emitter) : PagesKept s { t with emitter := e } := h.comp (.of_eq rfl rfl rfl)

theorem PagesKept.withDeferred (h : PagesKept s t) (n : Nat) : PagesKept s { t with deferredExpiries := n } :=
  h.comp (.of_eq rfl rfl rfl)

theorem stallExpiry_pages (s : State) : PagesKept s s.stallExpiry := by
  unfold State.stallExpiry
  split
  · exact dropHead_pages s
  · exact ((freeEmitted_pages s _).withEmitter _).comp (countDrop_pages _)
  · split
    · exact dropHead_pages s
    · split
      · exact PagesKept.rfl'.withDeferred _
      · exact (PagesKept.rfl'.withEmitter _).comp (countDrop_pages _)

theorem stallTimerExpiry_pages (s : State) : PagesKept s s.stallTimerExpiry := by
  rcases stallTimerExpiry_cases s with h | ⟨-, h⟩ <;> rw [h]
  · exact .rfl'
  · exact (stallExpiry_pages s).comp (.of_eq rfl rfl rfl)

theorem completeFragment_pages (s : State) : PagesKept s s.completeFragment := by
  unfold State.completeFragment
  split
  · simp only
    split
    · exact (((((freeFragmentPages_pages s _).comp (endStarved_pages _)).comp (freeEmitted_pages _ _)).withEmitter _).comp
        (dropHeads_pages _ _)).withDeferred _
    · exact ((freeFragmentPages_pages s _).comp (endStarved_pages _)).withEmitter _
  · exact ((((freeFragmentPages_pages s _).comp (freeEmitted_pages _ _)).withEmitter _).comp (dropHeads_pages _ _)).withDeferred _
  · exact .rfl'

/-! ## Placement -/

theorem openRecord_eq_some {rs : Assoc EpochRecord} {e j : Nat} {r : EpochRecord} (hs : assocSorted rs = true)
    (h : openRecord rs e = some (j, r)) : assocGet rs j = some r ∧ r.state = .opened ∧ r.number = e := by
  have found := List.find?_some h
  simp only [EpochRecord.inState, Bool.and_eq_true, decide_eq_true_iff] at found
  exact ⟨assocGet_of_mem hs (List.mem_of_find?_eq_some h), found⟩

/-- A sample written to the page that its entry names already. -/
theorem writeSample_pages_named {j k : Nat} {r : EpochRecord} {p : InHand} {page : PageNo} (hr : assocGet s.records j = some r)
    (hpage : assocGet (r.segment p.slot p.channel).pages (k / 64) = some page) (v : Sample) :
    PagesKept s (s.writeSample j p k page v) := by
  rw [writeSample_of_present hr]
  refine .replace hr id rfl (fun h => h.putSegment _ _ (assocSorted_put _ _ (h.segment _ _))) fun h => List.Perm.append_left _ ?_
  have same : ((r.segment p.slot p.channel).placed p k page).pageList.Perm (r.segment p.slot p.channel).pageList :=
    (((assocPut_perm (h.segment _ _) _ page).trans (perm_cons_assocErase (h.segment _ _) hpage).symm).map _)
  exact ((h.pageList_putSegment _ _ _).trans (same.append_right _)).trans (h.pageList _ _).symm

/-- A sample written to the page at the head of the free-page list. -/
theorem writeSample_pages_allocated {j k : Nat} {r : EpochRecord} {p : InHand} {page : PageNo} {rest : List PageNo}
    (hr : assocGet s.records j = some r) (hpage : assocGet (r.segment p.slot p.channel).pages (k / 64) = none)
    (hfree : s.freePages = page :: rest) (v : Sample) : PagesKept s (s.takePage.writeSample j p k page v) := by
  obtain ⟨flags, notice, htake, -⟩ := takePage_only s
  have present : assocGet s.takePage.records j = some r := by rw [htake]; exact hr
  rw [writeSample_of_present present, htake]
  refine .replace hr id rfl (fun h => h.putSegment _ _ (assocSorted_put _ _ (h.segment _ _))) fun h => ?_
  have more : ((r.segment p.slot p.channel).placed p k page).pageList.Perm (page :: (r.segment p.slot p.channel).pageList) :=
    (assocPut_perm_of_free hpage page).map _
  have record : (r.putSegment p.slot p.channel ((r.segment p.slot p.channel).placed p k page)).pageList.Perm (page :: r.pageList) :=
    ((h.pageList_putSegment _ _ _).trans (more.append_right _)).trans ((h.pageList _ _).symm.cons page)
  simp only [hfree, List.tail_cons]
  exact (record.append_left rest).trans List.perm_middle

theorem placeSample_pages (s : State) (p : InHand) (n gs : Nat) (v : Sample) (hs : PagesSorted s) :
    PagesKept s (s.placeSample p n gs v) := by
  have sorted := (placeSample_stations s p n gs v).sorted
  have counted (u : State) (f : Station → Station) (hu : PagesKept s u)
      (hst : assocSorted s.stations = true → assocSorted (u.modifyStation p.slot f).stations = true) :
      PagesKept s (u.modifyStation p.slot f) :=
    ⟨fun h => ⟨hst h.stations, by simpa using (hu.sorted h).records, by simpa using (hu.sorted h).segments⟩,
      fun h => by simpa [State.namedPages] using hu.perm h⟩
  revert sorted
  unfold State.placeSample State.placeInRecord
  simp only
  split
  · exact counted s _ .rfl'
  · split
    · exact counted s _ .rfl'
    · split
      · exact counted s _ .rfl'
      next j r hopen =>
        obtain ⟨hr, -, -⟩ := openRecord_eq_some hs.records hopen
        have overlap : PagesKept s (s.markOverlap j p) := by
          rw [State.markOverlap, State.modifyRecord, hr]
          refine .replace hr id rfl (fun h => h.putSegment _ _ (h.segment p.slot p.channel)) fun h => List.Perm.append_left _ ?_
          exact (h.pageList_putSegment _ _ _).trans (h.pageList p.slot p.channel).symm
        split
        next hpage =>
          split
          · exact counted _ _ overlap
          · exact fun _ => writeSample_pages_named hr hpage v
        next hpage _ hfree =>
          split
          · exact counted _ _ overlap
          · exact fun _ => writeSample_pages_allocated hr hpage hfree v
        next => exact counted _ _ (.of_eq (by simp) (by simp) (by simp))
        next => exact counted s _ .rfl'

theorem placeSamples_pages (p : InHand) (n : Nat) (vs : List Sample) (gs : Nat) (s : State) (hs : PagesSorted s) :
    PagesKept s (placeSamples p n gs vs s) := by
  induction vs generalizing gs s with
  | nil => exact .rfl'
  | cons v vs ih =>
    have first := placeSample_pages s p n gs v hs
    exact first.comp (ih _ _ (first.sorted hs))

/-! ## Every command -/

theorem rule_pages {d : Directive} (hd : directiveOf i = some d) (s : State) (ps : List Byte) : PagesKept s (d.rule s ps).state := by
  by_cases hr : setsRecords i = false
  · obtain ⟨records, free, -, -⟩ := (rule_untouched hd s ps).records hr
    refine .of_stations (fun h => ?_) records free
    by_cases hi : setsStations i = false
    · exact (rule_stations hd hi s ps).sorted h
    cases i <;> simp only [setsStations, setsRecords, not_true_eq_false, reduceCtorEq] at hi hr
    all_goals simp only [directiveOf, Option.some.injEq] at hd
    all_goals subst hd; dsimp only
    case mapStation =>
      rcases mapStationRule_state s ps with heq | ⟨_, _, _, -, -, -, -, heq⟩ <;> rw [heq]
      · exact h
      · exact assocSorted_put _ _ h
    case stageCorrection =>
      rcases stageCorrectionRule_state s ps with heq | ⟨_, _, -, -, heq⟩ <;> rw [heq]
      · exact h
      · exact assocSorted_put _ _ h
    case commitCorrection =>
      rcases commitCorrectionRule_state s ps with heq | ⟨_, _, _, _, -, -, -, heq⟩ <;> rw [heq]
      · exact h
      · exact assocSorted_put _ _ h
    case discardStaged =>
      rcases discardStagedRule_state s ps with heq | ⟨_, _, -, heq⟩ <;> rw [heq]
      · exact h
      · exact assocSorted_put _ _ h
  cases i <;> simp only [setsRecords, not_true_eq_false] at hr
  all_goals simp only [directiveOf, Option.some.injEq, reduceCtorEq] at hd
  all_goals subst hd; dsimp only
  case setLinks =>
    rcases setLinksRule_state s ps with heq | ⟨loss, stall, heq⟩ <;> rw [heq]
    · exact .rfl'
    · have linked (u : State) (p : Port) : PagesKept u (u.trunkExpiry p) := by
        obtain ⟨records, free, -, -⟩ := (trunkExpiry_untouched (i := .lossOfSignalIndication p) rfl u p).records rfl
        exact .of_stations (trunkExpiry_stations u p).sorted records free
      have chained (u : State) : PagesKept u u.chainLinkExpiry := by
        obtain ⟨records, free, -, -⟩ := (chainLinkExpiry_untouched (i := .chainLossOfSignal) rfl u).records rfl
        exact .of_stations (chainLinkExpiry_stations u).sorted records free
      have set : PagesKept s { s with linkLossTime := loss, stallLimit := stall } := .of_eq rfl rfl rfl
      exact (((set.comp (linked _ .a)).comp (linked _ .b)).comp (chained _)).comp (stallTimerExpiry_pages _)
  case unmapStation =>
    rcases unmapStationRule_state s ps with heq | ⟨slot, _, -, -, heq⟩ <;> rw [heq]
    · exact .rfl'
    · have removed : PagesKept s { s with map := mapRemove slot s.map, stations := assocErase s.stations slot } :=
        .of_stations (assocSorted_erase slot) rfl rfl
      by_cases hidle : s.store = .idle
      · exact unmap_of_idle hidle slot ▸ removed
      · exact unmap_of_running hidle slot ▸ removed.comp (emptyOpen_pages _ _ _ _)
  case setChannel =>
    rcases setChannelRule_state s ps with heq | ⟨slot, st, c, rate, word, order, -, -, heq⟩ <;> rw [heq]
    · exact .rfl'
    · have put (b : Station) : PagesKept s (s.putStation slot b) := .of_stations (assocSorted_put slot b) rfl rfl
      unfold State.setChannel
      simp only
      split
      · exact put _
      · exact (put _).comp (emptyOpen_pages _ _ [c] _)
  case storeStart =>
    rcases storeStartRule_state s ps with heq | ⟨-, heq⟩ <;> rw [heq]
    · exact .rfl'
    · have started : PagesKept s { s with store := .ready, eLo := some s.startEpoch } := .of_eq rfl rfl rfl
      exact started.comp (openFronts_pages _ _ _)
  case storeStop =>
    rcases storeStopRule_state s ps with heq | ⟨-, heq⟩ <;> rw [heq]
    · exact .rfl'
    · exact (dropRecords_pages s _).comp (.of_stations (fun h => by simpa using assocSorted_map _ h) (by simp) (by simp))
  case restart =>
    have dropped := dropRecords_pages s s.restartRecords
    refine dropped.comp (.of_stations (fun h => ?_) rfl rfl)
    have before : assocSorted s.stations = true := (dropRecords_emission s s.restartRecords).stations ▸ h
    exact assocSorted_map restartStation before

theorem PageInv.exec (h : exec i s = .next t) (hs : PageInv s) : PageInv t := by
  refine exec_keeps (I := PageInv) (fun _ _ _ hu => hu.kept (.of_eq rfl rfl rfl))
    (fun hu => hu.kept (.of_eq (by simp) (by simp) (by simp))) (fun i d hd u ps _ hu => hu.kept (rule_pages hd u ps))
    (fun i hd u v hv hu => ?_) i h hs
  by_cases hr : setsRecords i = false
  · have quiet : setsStations i = false := by cases i <;> simp_all [setsStations, directiveOf, setsRecords]
    obtain ⟨records, free, -, -⟩ := (exec_untouched hv).records hr
    exact hu.kept (.of_stations (exec_stations quiet hv).sorted records free)
  cases i <;> simp only [setsRecords, not_true_eq_false, directiveOf, reduceCtorEq] at hr hd
  case powerOnReset straps => exact Host.Outcome.next.inj hv ▸ pageInv_poweredOn u straps
  case handOff =>
    rcases handOff_cases hv with rfl | ⟨p, -, ⟨-, rfl⟩ | ⟨-, rfl⟩⟩
    · exact hu
    · have placed : PagesKept u (u.place p) := placeSamples_pages p _ _ _ u ((pageInv_iff u).1 hu).1
      exact hu.kept (placed.comp (.of_eq rfl rfl rfl))
    · have counted : PagesKept u (u.modifyStation p.slot
          (·.count (fun c => { c with storeNotReady := bump c.storeNotReady p.samples.length }))) := by
        refine .of_stations (fun h => ?_) (by simp) (by simp)
        unfold State.modifyStation
        split
        · exact assocSorted_put _ _ h
        · exact h
      exact hu.kept (counted.comp (.of_eq rfl rfl rfl))
  case timeMark =>
    rcases timeMark_cases hv with rfl | ⟨-, rfl⟩
    · refine (hu.kept ?_).kept (closeEvaluation_pages _)
      exact .of_eq (by simp) (by simp) (by simp)
    · exact hu.kept (.of_eq (by simp) (by simp) (by simp))
  case closeTimeReached =>
    rcases closeTimeReached_cases hv with rfl | rfl
    · exact hu
    · refine (hu.kept ?_).kept (closeEvaluation_pages _)
      exact .of_eq (by simp) (by simp) (by simp)
  case stallTimerExpiry => exact Host.Outcome.next.inj hv ▸ hu.kept (stallTimerExpiry_pages u)
  case grant =>
    rcases grant_cases hv with rfl | ⟨src, rfl⟩
    · exact hu
    · rcases grantSource_cases u src with ⟨_, _, _, heq⟩ | heq <;> rw [heq]
      · exact hu.kept (.of_eq rfl rfl rfl)
      · rcases grantOwn_cases u with heq | ⟨j, rest, r, e, tx, -, -, hget, -, heq⟩ | ⟨e, tx, -, heq⟩ <;> rw [heq]
        · exact hu.kept (.of_eq rfl rfl rfl)
        · exact hu.kept (.replaceSame hget id rfl rfl rfl)
        · exact hu.kept (.of_eq rfl rfl rfl)
  case fragmentCompletion =>
    rcases fragmentCompletion_cases hv with rfl | rfl
    · exact hu
    · have ended : PagesKept u { u with transmitting := none } := .of_eq rfl rfl rfl
      exact hu.kept (ended.comp (completeFragment_pages _))

/-- Settles O58: every operation on the records moves pages between the free-page list and the page entries (`PagesKept`). -/
theorem everyPageStaysInOnePlace : Obligations.EveryPageStaysInOnePlace := fun _ _ hs h =>
  step_keeps (I := PageInv) (fun _ _ hu => hu.kept (.of_eq rfl rfl rfl))
    (fun _ hu => hu.kept (.of_stations (assocSorted_map _) rfl rfl)) (fun _ _ _ hv hu => hu.exec hv) hs h

end Sys2Proof.Machine
end

section
/-! The segments of the Open records (R19, R79, R90, R91): each has its channel's n, counts its marks, and keeps a page under every
mark. -/

namespace Sys2Proof.Machine

variable {i : Instr} {s t u : State}

/-! ## n of a channel (R15, R78) -/

theorem channelN_of_station {slot : Nat} {st : Station} (h : s.station slot = some st) (c : Fin 4) :
    s.channelN slot c = nOf (st.channels.get c).rate s.plan.epochLength := by rw [State.channelN, h]

theorem channelN_of_vacant {slot : Nat} (h : s.station slot = none) (c : Fin 4) : s.channelN slot c = 0 := by rw [State.channelN, h]

/-- Every channel has the n that it had. -/
def SameN (s t : State) : Prop := ∀ slot c, t.channelN slot c = s.channelN slot c

theorem SameN.of_rates (hplan : t.plan = s.plan) (h : ∀ slot,
    Option.Rel (fun a b : Station => ∀ c, (b.channels.get c).rate = (a.channels.get c).rate) (s.station slot) (t.station slot)) :
    SameN s t := fun slot c => by
  have rel := h slot
  rw [State.channelN, State.channelN, hplan]
  generalize s.station slot = x at rel ⊢
  generalize t.station slot = y at rel ⊢
  cases rel with
  | none => rfl
  | some hab => simp only [hab c]

theorem SameN.of_evolve (hplan : t.plan = s.plan) (h : StationsEvolve s t) : SameN s t :=
  .of_rates hplan fun slot => by
    have rel := h.looked slot
    generalize s.station slot = x at rel ⊢
    generalize t.station slot = y at rel ⊢
    cases rel with
    | none => exact .none
    | some hab => exact .some hab.rate

theorem SameN.of_eq (hplan : t.plan = s.plan) (hst : t.stations = s.stations) : SameN s t := .of_evolve hplan (.of_eq hst)

theorem SameN.comp (h : SameN s t) (k : SameN t u) : SameN s u := fun slot c => (k slot c).trans (h slot c)

theorem SameN.put {slot : Nat} {a b : Station} (ha : s.station slot = some a) (h : b.channels = a.channels) :
    SameN s (s.putStation slot b) := .of_rates rfl fun k => by
  rw [station_putStation]
  split
  next hk =>
    rw [hk, ha]
    exact .some fun c => by rw [h]
  next =>
    cases s.station k with
    | none => exact .none
    | some a => exact .some fun _ => rfl

theorem nOf_zero (l : Nat) : nOf 0 l = 0 := rfl

theorem nOf_le (rate l : Nat) : nOf rate l ≤ 512 := by
  unfold nOf samplesPerEpoch
  split
  · exact Nat.zero_le _
  · simp only
    split
    next h => exact h.2.2
    next => exact Nat.zero_le _

theorem nOf_pos {rate l : Nat} (hr : rate ≠ 0) (hfit : (samplesPerEpoch rate l).isSome = true) : 0 < nOf rate l := by
  unfold nOf
  unfold samplesPerEpoch at hfit ⊢
  rw [if_neg hr] at hfit ⊢
  simp only at hfit ⊢
  split at hfit
  next h =>
    rw [if_pos h]
    exact h.2.1
  next => cases hfit

theorem channelN_le (s : State) (slot : Nat) (c : Fin 4) : s.channelN slot c ≤ 512 := by
  unfold State.channelN
  split
  · exact nOf_le _ _
  · exact Nat.zero_le _

/-! ## Sound segments -/

theorem Segment.Sound.empty (n : Nat) : (Segment.empty n).Sound where
  fill := by
    symm
    exact List.countP_eq_zero.2 fun k _ => by simp [Segment.empty]
  marks := fun k hk => by simp [Segment.empty] at hk
  none := by simp [Segment.empty]
  flags := fun _ => rfl

/-- One more of a list's members counts when a predicate comes to hold of it. -/
theorem countP_insert {l : List Nat} (hl : l.Nodup) {p : Nat → Bool} {k : Nat} (hk : k ∈ l) (hp : p k = false) :
    l.countP (fun j => p j || decide (j = k)) = l.countP p + 1 := by
  induction l with
  | nil => cases hk
  | cons x t ih =>
    obtain ⟨hx, ht⟩ := List.nodup_cons.1 hl
    by_cases hxk : x = k
    · subst hxk
      have rest : t.countP (fun j => p j || decide (j = x)) = t.countP p := List.countP_congr fun j hj => by
        have : j ≠ x := fun heq => hx (heq ▸ hj)
        simp [this]
      simp [hp, rest]
    · have later := ih ht ((List.mem_cons.1 hk).resolve_left (Ne.symm hxk))
      by_cases hpx : p x = true <;> simp [hpx, hxk, later]

theorem getLsbD_or_slot {filled : BitVec 512} {k j : Nat} (hk : k < 512) :
    (filled ||| BitVec.twoPow 512 k).getLsbD j = (filled.getLsbD j || decide (j = k)) := by
  rw [BitVec.getLsbD_or, BitVec.getLsbD_twoPow]
  by_cases h : j = k
  · simp [h, hk]
  · simp [h, Ne.symm h]

/-- A segment with a mark has a fill count (R79). -/
theorem Segment.Sound.fill_pos {g : Segment} (h : g.Sound) {k : Nat} (hk : g.filled.getLsbD k = true) : 0 < g.fill := by
  have bound : k < 512 := BitVec.lt_of_getLsbD hk
  rw [h.fill]
  exact List.countP_pos_iff.2 ⟨k, List.mem_range.2 bound, hk⟩

theorem Segment.Sound.placed {g : Segment} (h : g.Sound) (p : InHand) {k : Nat} (hk : k < g.n) (hn : g.n ≤ 512)
    (hclear : g.filled.getLsbD k = false) (page : PageNo) : (g.placed p k page).Sound where
  fill := by
    have bound : k < 512 := hk.trans_le hn
    have marks : (fun j => (g.filled ||| BitVec.twoPow 512 k).getLsbD j) = fun j => g.filled.getLsbD j || decide (j = k) :=
      funext fun j => getLsbD_or_slot bound
    have counted := countP_insert (List.nodup_range (n := 512)) (p := fun j => g.filled.getLsbD j) (List.mem_range.2 bound) hclear
    simp only [Segment.placed, marks, counted, ← h.fill]
  marks := fun j hj => by
    rw [Segment.placed, getLsbD_or_slot (hk.trans_le hn), Bool.or_eq_true, decide_eq_true_iff] at hj
    simp only [Segment.placed, assocGet_put]
    rcases hj with hj | rfl
    · obtain ⟨hlt, hpage⟩ := h.marks j hj
      refine ⟨hlt, ?_⟩
      split
      · rfl
      · exact hpage
    · exact ⟨hk, by simp⟩
  none := by simp [Segment.placed]
  flags := fun hzero => absurd hzero (Nat.succ_ne_zero _)

theorem Segment.Sound.flagged {g : Segment} (h : g.Sound) {k : Nat} (hk : g.filled.getLsbD k = true) (q : QualitySet) :
    ({ g with quality := g.quality ||| q } : Segment).Sound :=
  ⟨h.fill, h.marks, h.none, fun hzero => absurd hzero (h.fill_pos hk).ne'⟩

/-! ## Open records that an operation leaves or opens -/

/-- The segments of an epoch as it is opened: empty, with each channel's n (R78). -/
theorem openedRecord_segment (hs : assocSorted s.stations = true) (e slot : Nat) (c : Fin 4) :
    (openedRecord s e).segment slot c = Segment.empty (s.channelN slot c) := by
  have sorted := (openedRecord_sorted hs e).segments
  have listed {k : Nat} {g : Segment} (hg : assocGet (openedRecord s e).segments k = some g) :=
    mem_openedSegments.1 (mem_of_assocGet hg)
  unfold EpochRecord.segment
  cases hg : assocGet (openedRecord s e).segments (segmentKey slot c) with
  | some g =>
    obtain ⟨slot', st, c', hst, hkey, -, rfl⟩ := listed hg
    obtain ⟨rfl, rfl⟩ := segmentKey_inj.1 hkey
    rw [channelN_of_station (assocGet_of_mem hs hst)]
    rfl
  | none =>
    cases hst : s.station slot with
    | none => rw [channelN_of_vacant hst]; rfl
    | some st =>
      rw [channelN_of_station hst]
      by_cases hn : nOf (st.channels.get c).rate s.plan.epochLength = 0
      · rw [hn]; rfl
      · have mem := mem_openedSegments (e := e).2 ⟨slot, st, c, mem_of_assocGet hst, rfl, hn, rfl⟩
        rw [assocGet_of_mem sorted mem] at hg
        cases hg

/-- Every Open record of `t` is one of `s`, or newly opened. -/
structure OpensKept (s t : State) : Prop where
  opens  : assocSorted s.stations = true → ∀ j r, (j, r) ∈ t.records → r.state = .opened →
    (j, r) ∈ s.records ∨ ∀ slot c, r.segment slot c = Segment.empty (s.channelN slot c)
  same   : SameN s t
  sorted : assocSorted s.stations = true → assocSorted t.stations = true

theorem OpensKept.comp (h : OpensKept s t) (k : OpensKept t u) : OpensKept s u where
  opens := fun hs j r hr ho => by
    rcases k.opens (h.sorted hs) j r hr ho with hin | hnew
    · exact h.opens hs j r hin ho
    · exact .inr fun slot c => by rw [hnew, h.same]
  same := h.same.comp k.same
  sorted := fun hs => k.sorted (h.sorted hs)

/-- The records that are Open are among those that were listed before. -/
theorem OpensKept.of_subset (hsub : ∀ j r, (j, r) ∈ t.records → r.state = .opened → (j, r) ∈ s.records) (hplan : t.plan = s.plan)
    (hst : StationsEvolve s t) : OpensKept s t :=
  ⟨fun _ j r hr ho => .inl (hsub j r hr ho), .of_evolve hplan hst, hst.sorted⟩

theorem OpensKept.of_evolve (hr : t.records = s.records) (hplan : t.plan = s.plan) (hst : StationsEvolve s t) : OpensKept s t :=
  .of_subset (fun _ _ h _ => hr ▸ h) hplan hst

theorem OpensKept.of_eq (hr : t.records = s.records) (hplan : t.plan = s.plan) (hst : t.stations = s.stations) : OpensKept s t :=
  .of_evolve hr hplan (.of_eq hst)

theorem OpensKept.rfl' : OpensKept s s := .of_eq rfl rfl rfl

theorem OpensKept.foldl {α : Type} {f : State → α → State} (h : ∀ s a, OpensKept s (f s a)) (l : List α) (s : State) :
    OpensKept s (l.foldl f s) := by
  induction l generalizing s with
  | nil => exact .rfl'
  | cons a t ih => exact (h s a).comp (ih (f s a))

/-- A record put in the place of another that is not Open itself. -/
theorem OpensKept.replace {j : Nat} {r' : EpochRecord} (ho : r'.state ≠ .opened) (ht : t.records = assocPut s.records j r')
    (hplan : t.plan = s.plan) (hst : StationsEvolve s t) : OpensKept s t :=
  .of_subset (fun k q hq hqo => by
    rcases mem_assocPut (ht ▸ hq) with heq | hin
    · cases heq
      exact absurd hqo ho
    · exact hin) hplan hst

theorem OpensKept.withEmitter (h : OpensKept s t) (e : Emitter) : OpensKept s { t with emitter := e } := h.comp (.of_eq rfl rfl rfl)

theorem OpensKept.withDeferred (h : OpensKept s t) (n : Nat) : OpensKept s { t with deferredExpiries := n } :=
  h.comp (.of_eq rfl rfl rfl)

theorem raise_opens (s : State) (f : EventFlag) : OpensKept s (s.raise f) := .of_eq (by simp) (by simp) (by simp)

theorem dropRecord_opens (s : State) (j : Nat) : OpensKept s (s.dropRecord j) := by
  have frame := dropRecord_emission s j
  refine .of_subset (fun k r hr _ => ?_) frame.plan (.of_eq frame.stations)
  unfold State.dropRecord at hr
  split at hr
  · exact (mem_assocErase hr).1
  · exact hr

theorem openEpoch_opens (s : State) (j e : Nat) : OpensKept s (s.openEpoch j e) where
  opens := fun hs k r hr _ => by
    rcases mem_assocPut hr with heq | hin
    · cases heq
      exact .inr fun slot c => openedRecord_segment hs e slot c
    · exact .inl hin
  same := .of_eq rfl rfl
  sorted := id

theorem endStarved_opens (s : State) : OpensKept s s.endStarved := .of_eq (by simp) (by simp) (by simp)

theorem openFrontAfterFree_opens (s : State) : OpensKept s s.openFrontAfterFree := by
  unfold State.openFrontAfterFree
  split
  · split
    · exact openEpoch_opens s _ _
    · exact .rfl'
  · exact .rfl'

theorem freeEmitted_opens (s : State) (j : Nat) : OpensKept s (s.freeEmitted j) :=
  ((dropRecord_opens s j).comp (endStarved_opens _)).comp (openFrontAfterFree_opens _)

theorem openFronts_opensKept (lo k : Nat) (s : State) : OpensKept s (openFronts lo k s) := by
  induction k generalizing s with
  | zero => exact .rfl'
  | succ k ih =>
    unfold openFronts
    split
    · split
      · exact (openEpoch_opens s _ _).comp (ih _)
      · exact raise_opens s _
    · exact .rfl'

theorem dropRecords_opens (s : State) (rs : List (Nat × EpochRecord)) : OpensKept s (s.dropRecords rs) :=
  OpensKept.foldl (fun s (p : Nat × EpochRecord) => dropRecord_opens s p.1) _ s

theorem closeRecord_opens (s : State) (j : Nat) : OpensKept s (s.closeRecord j) := by
  have evolved := closeRecord_stations s j
  revert evolved
  unfold State.closeRecord
  split
  · exact fun evolved => .replace (by simp) rfl rfl evolved
  · exact fun _ => .rfl'

theorem closeEvaluation_opens (s : State) : OpensKept s s.closeEvaluation := by
  have due : OpensKept s s.closeDue := .foldl (fun s (p : Nat × EpochRecord) => closeRecord_opens s p.1) _ s
  have skipped (u : State) (first : Nat) : OpensKept u (u.skipTo first) := by
    refine .of_evolve ?_ (skipTo_frame u first).plan (skipTo_stations u first)
    unfold State.skipTo
    split
    · split
      · simp
      · rfl
    · rfl
  have opened (u : State) : OpensKept u u.openWindow := by
    unfold State.openWindow
    split
    · exact openFronts_opensKept _ _ u
    · exact .rfl'
  unfold State.closeEvaluation
  split
  · exact .rfl'
  · exact (due.comp (skipped _ _)).comp (opened _)

theorem countDrop_opens (s : State) : OpensKept s s.countDrop :=
  .of_eq (by simp [State.countDrop]) (by simp [State.countDrop]) (by simp [State.countDrop])

theorem dropHead_opens (s : State) : OpensKept s s.dropHead := by
  unfold State.dropHead
  split
  next j rest _ =>
    have queue : OpensKept s { s with closedQueue := rest } := .of_eq rfl rfl rfl
    exact (queue.comp (freeEmitted_opens _ j)).comp (countDrop_opens _)
  next => exact .rfl'

theorem dropHeads_opens (k : Nat) (s : State) : OpensKept s (dropHeads k s) := by
  induction k generalizing s with
  | zero => exact .rfl'
  | succ k ih => exact (dropHead_opens s).comp (ih _)

theorem stallTimerExpiry_opens (s : State) : OpensKept s s.stallTimerExpiry := by
  have expiry : OpensKept s s.stallExpiry := by
    unfold State.stallExpiry
    split
    · exact dropHead_opens s
    · exact ((freeEmitted_opens s _).withEmitter _).comp (countDrop_opens _)
    · split
      · exact dropHead_opens s
      · split
        · exact OpensKept.rfl'.withDeferred _
        · exact (OpensKept.rfl'.withEmitter _).comp (countDrop_opens _)
  rcases stallTimerExpiry_cases s with h | ⟨-, h⟩ <;> rw [h]
  · exact .rfl'
  · exact expiry.comp (.of_eq rfl rfl rfl)

/-! ## The fragment's pages: a record that is not Open -/

/-- Record `j`, if it is listed, is not Open. -/
def State.NotOpen (s : State) (j : Nat) : Prop := ∀ r, assocGet s.records j = some r → r.state ≠ .opened

theorem freeSegmentPages_opens {j : Nat} (h : s.NotOpen j) (slot : Nat) (c : Fin 4) :
    OpensKept s (s.freeSegmentPages j slot c) ∧ (s.freeSegmentPages j slot c).NotOpen j := by
  unfold State.freeSegmentPages
  split
  next r hr =>
    let r' := r.putSegment slot c { r.segment slot c with pages := [] }
    refine ⟨.replace (r' := r') (h r hr) rfl rfl (.of_eq rfl), fun q hq => ?_⟩
    rw [assocGet_put_same] at hq
    exact Option.some.inj hq ▸ h r hr
  next => exact ⟨.rfl', h⟩

theorem freeFragmentPages_opens {e : Emission} (h : s.NotOpen e.record) : OpensKept s (s.freeFragmentPages e) := by
  have channels (slot : Nat) (cs : List (Fin 4)) (u : State) (hu : u.NotOpen e.record) :
      OpensKept u (cs.foldl (fun s c => s.freeSegmentPages e.record slot c) u) ∧
        (cs.foldl (fun s c => s.freeSegmentPages e.record slot c) u).NotOpen e.record := by
    induction cs generalizing u with
    | nil => exact ⟨.rfl', hu⟩
    | cons c cs ih =>
      obtain ⟨first, still⟩ := freeSegmentPages_opens hu slot c
      obtain ⟨rest, last⟩ := ih _ still
      exact ⟨first.comp rest, last⟩
  have slots (l : List Nat) (u : State) (hu : u.NotOpen e.record) :
      OpensKept u (l.foldl (fun s slot => channels4.foldl (fun s c => s.freeSegmentPages e.record slot c) s) u) := by
    induction l generalizing u with
    | nil => exact .rfl'
    | cons slot l ih =>
      obtain ⟨first, still⟩ := channels slot channels4 u hu
      exact first.comp (ih _ still)
  exact slots e.slotsOf s h

theorem completeFragment_opens (h : ∀ e, s.emitter.emission = some e → s.NotOpen e.record) : OpensKept s s.completeFragment := by
  unfold State.completeFragment
  split
  next e he =>
    have freed := freeFragmentPages_opens (h e (by rw [he]; rfl))
    simp only
    split
    · exact ((((freed.comp (endStarved_opens _)).comp (freeEmitted_opens _ _)).withEmitter _).comp (dropHeads_opens _ _)).withDeferred _
    · exact (freed.comp (endStarved_opens _)).withEmitter _
  next e fate hne he =>
    have freed := freeFragmentPages_opens (h e (by rw [he]; rfl))
    exact (((freed.comp (freeEmitted_opens _ _)).withEmitter _).comp (dropHeads_opens _ _)).withDeferred _
  next => exact .rfl'

end Sys2Proof.Machine
end

section
/-! Every command keeps the segments of the Open records, and a configured channel for the packet in hand. -/

namespace Sys2Proof.Machine

variable {i : Instr} {s t u : State}

/-- Every segment of an Open record is sound and has its channel's n (R19, R79, R90). -/
def SegmentsOk (s : State) : Prop :=
  ∀ j r, (j, r) ∈ s.records → r.state = .opened → ∀ slot c, (r.segment slot c).n = s.channelN slot c ∧ (r.segment slot c).Sound

theorem segmentInv_iff (s : State) : SegmentInv s ↔ SegmentsOk s ∧ ∀ p, s.inHand = some p → 0 < s.channelN p.slot p.channel :=
  ⟨fun h => ⟨h.segments, h.hand⟩, fun ⟨h, k⟩ => ⟨h, k⟩⟩

theorem SegmentsOk.kept (h : SegmentsOk s) (hs : assocSorted s.stations = true) (k : OpensKept s t) : SegmentsOk t :=
  fun j r hr ho slot c => by
    rcases k.opens hs j r hr ho with hin | hnew
    · rw [k.same]
      exact h j r hin ho slot c
    · rw [hnew, k.same]
      exact ⟨rfl, .empty _⟩

theorem SegmentsOk.vacuous (h : ∀ j r, (j, r) ∈ t.records → r.state ≠ .opened) : SegmentsOk t :=
  fun j r hr ho => absurd ho (h j r hr)

/-- The packet in hand stays, or is handed off. -/
theorem SegmentInv.kept (h : SegmentInv s) (hs : assocSorted s.stations = true) (k : OpensKept s t)
    (hand : ∀ p, t.inHand = some p → s.inHand = some p) : SegmentInv t :=
  (segmentInv_iff t).2 ⟨((segmentInv_iff s).1 h).1.kept hs k, fun p hp => k.same p.slot p.channel ▸ h.hand p (hand p hp)⟩

/-! ## Placement -/

theorem SegmentsOk.replace {j : Nat} {r r' : EpochRecord} (h : SegmentsOk s) (hr : (j, r) ∈ s.records)
    (ht : t.records = assocPut s.records j r') (same : SameN s t)
    (hr' : r'.state = .opened → r.state = .opened ∧
      ∀ slot c, (r'.segment slot c).n = (r.segment slot c).n ∧ ((r.segment slot c).Sound → (r'.segment slot c).Sound)) :
    SegmentsOk t := fun k q hq ho slot c => by
  rw [same]
  rcases mem_assocPut (ht ▸ hq) with heq | hin
  · cases heq
    obtain ⟨hro, hsegs⟩ := hr' ho
    obtain ⟨hn, hsound⟩ := h j r hr hro slot c
    obtain ⟨hn', hsound'⟩ := hsegs slot c
    exact ⟨hn'.trans hn, hsound' hsound⟩
  · exact h k q hin ho slot c

/-- One segment of an Open record replaced by another of the same n. -/
theorem SegmentsOk.putSegment {j slot : Nat} {c : Fin 4} {r : EpochRecord} {g : Segment} (h : SegmentsOk s) (hr : (j, r) ∈ s.records)
    (ht : t.records = assocPut s.records j (r.putSegment slot c g)) (same : SameN s t) (hn : g.n = (r.segment slot c).n)
    (hg : (r.segment slot c).Sound → g.Sound) : SegmentsOk t :=
  h.replace hr ht same fun ho => ⟨ho, fun k d => by
    rw [segment_putSegment]
    split
    next heq =>
      obtain ⟨rfl, rfl⟩ := heq
      exact ⟨hn, hg⟩
    next => exact ⟨rfl, id⟩⟩

/-- What placing a packet's sample at slot `k` makes of its segment: OVERLAP where the slot is filled, and the mark where it is
clear (R90, R91). -/
inductive Segment.Judged (g : Segment) (p : InHand) (k : Nat) : Segment → Prop
  | overlapped (h : g.filled.getLsbD k = true) : Judged g p k { g with quality := g.quality ||| Quality.overlap }
  | placed (h : g.filled.getLsbD k = false) (page : PageNo) : Judged g p k (g.placed p k page)

theorem Segment.Judged.n {g g' : Segment} {p : InHand} {k : Nat} (h : g.Judged p k g') : g'.n = g.n := by
  cases h <;> rfl

theorem Segment.Judged.sound {g g' : Segment} {p : InHand} {k : Nat} (h : g.Judged p k g') (hg : g.Sound) (hk : k < g.n)
    (hn : g.n ≤ 512) : g'.Sound := by
  cases h with
  | overlapped hset => exact hg.flagged hset _
  | placed hclear page => exact hg.placed p hk hn hclear page

/-- A sample judged in the record of its epoch leaves the records, or changes the one segment. -/
theorem placeInRecord_records {j : Nat} {r : EpochRecord} (hr : assocGet s.records j = some r) (p : InHand) (k : Nat) (v : Sample) :
    (s.placeInRecord j r p k v).records = s.records ∨
      ∃ g, (r.segment p.slot p.channel).Judged p k g ∧
        (s.placeInRecord j r p k v).records = assocPut s.records j (r.putSegment p.slot p.channel g) := by
  have marked : (s.markOverlap j p).records = assocPut s.records j (r.putSegment p.slot p.channel
      { r.segment p.slot p.channel with quality := (r.segment p.slot p.channel).quality ||| Quality.overlap }) := by
    rw [State.markOverlap, State.modifyRecord, hr]
  unfold State.placeInRecord
  simp only
  split
  · split
    next hset => exact .inr ⟨_, .overlapped hset, by simpa using marked⟩
    next hclear => exact .inr ⟨_, .placed (eq_false_of_ne_true hclear) _, by rw [writeSample_of_present hr]⟩
  · split
    next hset => exact .inr ⟨_, .overlapped hset, by simpa using marked⟩
    next hclear =>
      obtain ⟨flags, notice, htake, -⟩ := takePage_only s
      have present : assocGet s.takePage.records j = some r := by rw [htake]; exact hr
      exact .inr ⟨_, .placed (eq_false_of_ne_true hclear) _, by rw [writeSample_of_present present, htake]⟩
  · exact .inl (by simp)
  · exact .inl (by simp)

theorem placeSample_records (hs : assocSorted s.records = true) (p : InHand) (n gs : Nat) (v : Sample) :
    (s.placeSample p n gs v).records = s.records ∨
      ∃ j r g, assocGet s.records j = some r ∧ r.state = .opened ∧ (r.segment p.slot p.channel).Judged p (gs % n) g ∧
        (s.placeSample p n gs v).records = assocPut s.records j (r.putSegment p.slot p.channel g) := by
  unfold State.placeSample
  simp only
  split
  · exact .inl (by simp)
  · split
    · exact .inl (by simp)
    · split
      · exact .inl (by simp)
      next j r hopen =>
        obtain ⟨hr, ho, -⟩ := openRecord_eq_some hs hopen
        rcases placeInRecord_records hr p (gs % n) v with heq | ⟨g, hg, heq⟩
        · exact .inl heq
        · exact .inr ⟨j, r, g, hr, ho, hg, heq⟩

theorem placeSample_same (s : State) (p : InHand) (n gs : Nat) (v : Sample) : SameN s (s.placeSample p n gs v) :=
  .of_evolve (placeSample_frame s p n gs v).plan (placeSample_stations s p n gs v)

theorem placeSample_segments (h : SegmentsOk s) (hs : PagesSorted s) (p : InHand) {n : Nat} (hn : s.channelN p.slot p.channel = n)
    (hpos : 0 < n) (gs : Nat) (v : Sample) : SegmentsOk (s.placeSample p n gs v) := by
  rcases placeSample_records hs.records p n gs v with heq | ⟨j, r, g, hr, ho, hg, heq⟩
  · exact h.kept hs.stations (.of_evolve heq (placeSample_frame s p n gs v).plan (placeSample_stations s p n gs v))
  · obtain ⟨hlen, -⟩ := h j r (mem_of_assocGet hr) ho p.slot p.channel
    refine h.putSegment (mem_of_assocGet hr) heq (placeSample_same s p n gs v) hg.n fun sound => hg.sound sound ?_ ?_
    · rw [hlen, hn]
      exact Nat.mod_lt gs hpos
    · rw [hlen]
      exact channelN_le s p.slot p.channel

theorem placeSamples_segments (p : InHand) {n : Nat} (hpos : 0 < n) (vs : List Sample) (gs : Nat) (s : State) (h : SegmentsOk s)
    (hs : PagesSorted s) (hn : s.channelN p.slot p.channel = n) : SegmentsOk (placeSamples p n gs vs s) := by
  induction vs generalizing gs s with
  | nil => exact h
  | cons v vs ih =>
    exact ih _ _ (placeSample_segments h hs p hn hpos gs v) ((placeSample_pages s p n gs v hs).sorted hs)
      ((placeSample_same s p n gs v _ _).trans hn)

/-! ## The directives that set a channel's n, or remove a station -/

theorem SegmentsOk.emptied (h : SegmentsOk s) (hs : PagesSorted u) (hu : u.records = s.records) (hf : u.failureSignal = false)
    {slot : Nat} {cs : List (Fin 4)} (hcs : cs.Nodup) {n : Nat}
    (hn : ∀ k d, u.channelN k d = if k = slot ∧ d ∈ cs then n else s.channelN k d) : SegmentsOk (u.emptyOpen slot cs n) := by
  have sorted := ((emptyOpen_pages u slot cs n).sorted hs).records
  have frame := emptyOpen_emission u slot cs n
  have same : SameN u (u.emptyOpen slot cs n) := .of_eq frame.plan frame.stations
  obtain ⟨records, emptied, heq⟩ := emptyOpen_eq hs.records hf slot hcs n
  have hrecords : (u.emptyOpen slot cs n).records = records := by rw [heq]
  intro j r hr ho k d
  rw [same, hn]
  have found : assocGet records j = some r := hrecords ▸ assocGet_of_mem sorted hr
  cases hold : assocGet u.records j with
  | none => rw [emptied.free j hold] at found; cases found
  | some r0 =>
    by_cases ho0 : r0.state = .opened
    · obtain ⟨segments, hget, hsegs⟩ := emptied.segments hold ho0
      rw [found] at hget
      obtain rfl := Option.some.inj hget
      rw [hsegs]
      split
      · exact ⟨rfl, .empty n⟩
      · exact h j r0 (hu ▸ mem_of_assocGet hold) ho0 k d
    · rw [emptied.notOpen j r0 hold ho0] at found
      exact absurd (Option.some.inj found ▸ ho) ho0

/-- What the other invariants say that the segments need. -/
structure SegmentContext (s : State) : Prop where
  plan     : PlanInv s
  pages    : PagesSorted s
  idle     : s.store = .idle → ∀ j r, (j, r) ∈ s.records → r.state ≠ .opened
  emitting : ∀ e, s.emitter.emission = some e → s.NotOpen e.record

theorem openCount_eq_zero_iff (s : State) : s.openCount = 0 ↔ ∀ j r, (j, r) ∈ s.records → r.state ≠ .opened := by
  unfold State.openCount State.countRecords
  rw [List.countP_eq_zero]
  exact ⟨fun h j r hr ho => h (j, r) hr (by simp [EpochRecord.inState, ho]), fun h p hp hc => h p.1 p.2 hp (by simpa [EpochRecord.inState] using hc)⟩

theorem SegmentContext.of_invs (hplan : PlanInv s) (hstore : StoreInv s) (hpage : PageInv s) : SegmentContext s where
  plan := hplan
  pages := ((pageInv_iff s).1 hpage).1
  idle := fun hidle => by
    have noWindow : s.eLo = none := by simpa [hidle] using hstore.present
    exact (openCount_eq_zero_iff s).1 (hstore.noWindow noWindow)
  emitting := fun e he r hr ho => by
    obtain ⟨r', hr', hstate⟩ := (hstore.emitting e.record).2 ⟨e, he, rfl⟩
    rw [hr] at hr'
    cases hr'
    rw [ho] at hstate
    cases hstate

theorem SegmentContext.withhold (h : SegmentContext s) : SegmentContext s.withhold where
  plan := h.plan.of_changes (by simp) (.of_eq (by simp))
  pages := (PagesKept.of_eq (by simp) (by simp) (by simp)).sorted h.pages
  idle := fun hidle => by simpa using h.idle ((withhold_idle s).1 hidle)
  emitting := fun e he r hr => h.emitting e (by simpa using he) r (by simpa using hr)

theorem withhold_opens (s : State) : OpensKept s s.withhold := .of_eq (by simp) (by simp) (by simp)

theorem channelN_putStation (slot : Nat) (st : Station) (k : Nat) (d : Fin 4) :
    (s.putStation slot st).channelN k d =
      if k = slot then nOf (st.channels.get d).rate s.plan.epochLength else s.channelN k d := by
  rw [State.channelN, station_putStation]
  by_cases h : k = slot
  · simp only [if_pos h]
    rfl
  · simp only [if_neg h]
    rfl

theorem setPlanRule_segments (h : SegmentInv s) (hc : SegmentContext s) (ps : List Byte) : SegmentInv (setPlanRule s ps).state := by
  rcases setPlanRule_state s ps with heq | ⟨plan, -, -, hfit, hidle, heq⟩ <;> rw [heq]
  · exact h
  · refine (segmentInv_iff _).2 ⟨.vacuous (hc.idle hidle), fun p hp => ?_⟩
    have configured := h.hand p hp
    cases hst : s.station p.slot with
    | none => simp [channelN_of_vacant hst] at configured
    | some st =>
      rw [channelN_of_station hst] at configured
      have rate : (st.channels.get p.channel).rate ≠ 0 := fun hzero => by simp [hzero, nOf_zero] at configured
      rw [channelN_of_station (s := { s with plan := plan }) hst]
      exact nOf_pos rate ((channelsFit_iff s plan.epochLength).1 hfit p.slot st (mem_of_assocGet hst) p.channel)

/-- A Vacant slot has n = 0 throughout, and so has a station newly mapped. -/
theorem mapStationRule_opens (s : State) (ps : List Byte) : OpensKept s (mapStationRule s ps).state := by
  rcases mapStationRule_state s ps with heq | ⟨slot, mask, limit, -, -, -, hvacant, heq⟩ <;> rw [heq]
  · exact .rfl'
  · refine ⟨fun _ _ _ hr _ => .inl hr, fun k d => ?_, fun hs => assocSorted_put _ _ hs⟩
    rw [channelN_putStation]
    split
    next hk =>
      rw [hk, freshStation_channel, channelN_of_vacant hvacant]
      rfl
    next => rfl

/-- The directive's rule refuses, or removes the station that its first parameter names. -/
theorem unmapStationRule_state_of_slot (s : State) (ps : List Byte) :
    (unmapStationRule s ps).state = s ∨ (unmapStationRule s ps).state = s.unmap (fieldAt ps 0 1) := by
  unfold unmapStationRule
  simp only
  split
  · exact .inl rfl
  · split
    · exact .inl rfl
    · split
      · exact .inl rfl
      · exact .inr rfl

theorem unmapStationRule_segments (h : SegmentInv s) (hc : SegmentContext s) (hf : s.failureSignal = false) {ps : List Byte}
    (hhand : ∀ p, s.inHand = some p → p.slot ≠ fieldAt ps 0 1) : SegmentInv (unmapStationRule s ps).state := by
  rcases unmapStationRule_state_of_slot s ps with heq | heq <;> rw [heq]
  · exact h
  generalize fieldAt ps 0 1 = slot at hhand
  let u : State := { s with map := mapRemove slot s.map, stations := assocErase s.stations slot }
  have hN (k : Nat) (d : Fin 4) : u.channelN k d = if k = slot then 0 else s.channelN k d := by
    have looked : u.station k = if k = slot then none else s.station k := assocGet_erase _ _ _
    by_cases hk : k = slot
    · rw [if_pos hk] at looked ⊢
      exact channelN_of_vacant looked d
    · rw [if_neg hk] at looked ⊢
      rw [State.channelN, looked]
      rfl
  have hand : ∀ p, s.inHand = some p → 0 < u.channelN p.slot p.channel := fun p hp => by
    rw [hN, if_neg (hhand p hp)]
    exact h.hand p hp
  by_cases hidle : s.store = .idle
  · rw [unmap_of_idle hidle]
    exact (segmentInv_iff _).2 ⟨.vacuous (hc.idle hidle), hand⟩
  · have pages : PagesSorted u := ⟨assocSorted_erase _ hc.pages.stations, hc.pages.records, hc.pages.segments⟩
    have frame := emptyOpen_emission u slot [0, 1, 2, 3] 0
    have same : SameN u (u.emptyOpen slot [0, 1, 2, 3] 0) := .of_eq frame.plan frame.stations
    have every : ∀ d : Fin 4, d ∈ ([0, 1, 2, 3] : List (Fin 4)) := by decide
    rw [unmap_of_running hidle]
    refine (segmentInv_iff _).2 ⟨((segmentInv_iff s).1 h).1.emptied pages rfl hf (by decide) fun k d => ?_, fun p hp => ?_⟩
    · simp only [hN, every, and_true]
    · rw [same]
      exact hand p (frame.inHand ▸ hp)

/-- The directive's rule refuses, or sets a channel of the station that its first parameter names. -/
theorem setChannelRule_state_of_slot (s : State) (ps : List Byte) :
    (setChannelRule s ps).state = s ∨ ∃ st c rate word order, s.station (fieldAt ps 0 1) = some st ∧
      (setChannelRule s ps).state = s.setChannel (fieldAt ps 0 1) st c rate word order := by
  unfold setChannelRule
  simp only
  split
  · split
    · split
      · exact .inl rfl
      next st hst =>
        split
        · exact .inl rfl
        · split
          · exact .inl rfl
          · exact .inr ⟨st, _, _, _, _, hst, rfl⟩
    · exact .inl rfl
  · exact .inl rfl

theorem setChannelRule_segments (h : SegmentInv s) (hc : SegmentContext s) (hf : s.failureSignal = false) {ps : List Byte}
    (hhand : ∀ p, s.inHand = some p → p.slot ≠ fieldAt ps 0 1) : SegmentInv (setChannelRule s ps).state := by
  rcases setChannelRule_state_of_slot s ps with heq | ⟨st, c, rate, word, order, hst, heq⟩ <;> rw [heq]
  · exact h
  generalize fieldAt ps 0 1 = slot at hhand hst
  let u := s.putStation slot { st with channels := st.channels.set c ((st.channels.get c).configure rate word order) }
  have hN (k : Nat) (d : Fin 4) :
      u.channelN k d = if k = slot ∧ d = c then nOf rate s.plan.epochLength else s.channelN k d := by
    rw [channelN_putStation, get_set]
    by_cases hk : k = slot
    · subst hk
      simp only [true_and, if_true, channelN_of_station hst]
      split <;> rfl
    · simp only [hk, false_and, if_false]
  have hand : ∀ p, s.inHand = some p → 0 < u.channelN p.slot p.channel := fun p hp => by
    rw [hN, if_neg fun heq => hhand p hp heq.1]
    exact h.hand p hp
  have kept : s.store = .idle ∨ (st.channels.get c).rate = rate → SegmentInv u := fun hk =>
    (segmentInv_iff _).2 ⟨by
      rcases hk with hidle | hrate
      · exact .vacuous (hc.idle hidle)
      · refine ((segmentInv_iff s).1 h).1.kept hc.pages.stations
          ⟨fun _ _ _ hr _ => .inl hr, fun k d => ?_, fun hs => assocSorted_put _ _ hs⟩
        rw [hN]
        split
        next heq => rw [heq.1, heq.2, channelN_of_station hst, hrate]
        next => rfl, hand⟩
  by_cases hk : s.store = .idle ∨ (st.channels.get c).rate = rate
  · rw [setChannel_of_kept hk]
    exact kept hk
  · obtain ⟨hrun, hrate⟩ := not_or.1 hk
    have pages : PagesSorted u := ⟨assocSorted_put _ _ hc.pages.stations, hc.pages.records, hc.pages.segments⟩
    have frame := emptyOpen_emission u slot [c] (nOf rate s.plan.epochLength)
    have same : SameN u (u.emptyOpen slot [c] (nOf rate s.plan.epochLength)) := .of_eq frame.plan frame.stations
    rw [setChannel_of_changed hrun hrate]
    refine (segmentInv_iff _).2 ⟨((segmentInv_iff s).1 h).1.emptied pages rfl hf (List.nodup_singleton c) fun k d => ?_,
      fun p hp => ?_⟩
    · simp only [hN, List.mem_singleton]
    · rw [same]
      exact hand p (frame.inHand ▸ hp)

/-! ## Every other directive -/

theorem trunkExpiry_opens (s : State) (p : Port) : OpensKept s (s.trunkExpiry p) := by
  obtain ⟨records, -, -, -⟩ := (trunkExpiry_untouched (i := .lossOfSignalIndication p) rfl s p).records rfl
  exact .of_evolve records ((trunkExpiry_kept (i := .identify) s p).plan nofun) (trunkExpiry_stations s p)

theorem chainLinkExpiry_opens (s : State) : OpensKept s s.chainLinkExpiry := by
  obtain ⟨records, -, -, -⟩ := (chainLinkExpiry_untouched (i := .chainLossOfSignal) rfl s).records rfl
  exact .of_evolve records ((chainLinkExpiry_kept (i := .identify) s).plan nofun) (chainLinkExpiry_stations s)

theorem rule_opens {d : Directive} (hd : directiveOf i = some d) (hplan : i ≠ .setPlan) (hunmap : i ≠ .unmapStation)
    (hchannel : i ≠ .setChannel) (s : State) (ps : List Byte) : OpensKept s (d.rule s ps).state := by
  by_cases hi : setsStations i = false ∧ setsRecords i = false
  · obtain ⟨records, -, -, -⟩ := (rule_untouched hd s ps).records hi.2
    exact .of_evolve records ((rule_kept hd s ps).plan hplan) (rule_stations hd hi.1 s ps)
  have put {slot : Nat} {a b : Station} (ha : s.station slot = some a) (h : b.channels = a.channels) :
      OpensKept s (s.putStation slot b) :=
    ⟨fun _ _ _ hr _ => .inl hr, .put ha h, fun hs => assocSorted_put _ _ hs⟩
  cases i <;> simp only [setsStations, setsRecords, and_self, not_true_eq_false, ne_eq] at hi hplan hunmap hchannel
  all_goals simp only [directiveOf, Option.some.injEq, reduceCtorEq] at hd
  all_goals subst hd; dsimp only
  case mapStation => exact mapStationRule_opens s ps
  case stageCorrection =>
    rcases stageCorrectionRule_state s ps with heq | ⟨_, _, hst, -, heq⟩ <;> rw [heq]
    · exact .rfl'
    · exact put hst rfl
  case commitCorrection =>
    rcases commitCorrectionRule_state s ps with heq | ⟨_, _, _, _, hst, -, -, heq⟩ <;> rw [heq]
    · exact .rfl'
    · exact put hst rfl
  case discardStaged =>
    rcases discardStagedRule_state s ps with heq | ⟨_, _, hst, heq⟩ <;> rw [heq]
    · exact .rfl'
    · exact put hst rfl
  case setLinks =>
    rcases setLinksRule_state s ps with heq | ⟨loss, stall, heq⟩ <;> rw [heq]
    · exact .rfl'
    · have set : OpensKept s { s with linkLossTime := loss, stallLimit := stall } := .of_eq rfl rfl rfl
      exact (((set.comp (trunkExpiry_opens _ .a)).comp (trunkExpiry_opens _ .b)).comp (chainLinkExpiry_opens _)).comp
        (stallTimerExpiry_opens _)
  case storeStart =>
    rcases storeStartRule_state s ps with heq | ⟨-, heq⟩ <;> rw [heq]
    · exact .rfl'
    · have started : OpensKept s { s with store := .ready, eLo := some s.startEpoch } := .of_eq rfl rfl rfl
      exact started.comp (openFronts_opensKept _ _ _)
  case storeStop =>
    rcases storeStopRule_state s ps with heq | ⟨-, heq⟩ <;> rw [heq]
    · exact .rfl'
    · exact (dropRecords_opens s _).comp (.of_evolve rfl rfl (.map rfl retirePrevious_evolves))
  case restart =>
    have dropped := dropRecords_emission s s.restartRecords
    refine (dropRecords_opens s s.restartRecords).comp (.of_evolve rfl rfl (.map (f := restartStation) ?_ restartStation_evolves))
    rw [dropped.stations]
    rfl

theorem rule_segments {d : Directive} (hd : directiveOf i = some d) (h : SegmentInv s) (hc : SegmentContext s)
    (hf : s.failureSignal = false) {ps : List Byte} (hwait : d.waits s ps = false) : SegmentInv (d.rule s ps).state := by
  have hhand (hw : waitsForStation s ps = false) (p : InHand) (hp : s.inHand = some p) : p.slot ≠ fieldAt ps 0 1 := by
    simpa [waitsForStation, State.handles, hp] using hw
  by_cases hplan : i = .setPlan
  · subst hplan
    cases hd
    exact setPlanRule_segments h hc ps
  by_cases hunmap : i = .unmapStation
  · subst hunmap
    cases hd
    exact unmapStationRule_segments h hc hf (hhand hwait)
  by_cases hchannel : i = .setChannel
  · subst hchannel
    cases hd
    exact setChannelRule_segments h hc hf (hhand hwait)
  refine h.kept hc.pages.stations (rule_opens hd hplan hunmap hchannel s ps) fun p hp => ?_
  have hand : setsHand i = false := by cases i <;> simp_all [setsHand, directiveOf]
  exact (rule_untouched hd s ps).hand hand ▸ hp

/-! ## Every command -/

theorem finishEntry_opens (s : State) (p : Progress) (e : Entry) (rest : List Entry) (o : DirOutcome) (data : List Byte) :
    OpensKept s (s.finishEntry p e rest o data) := by
  obtain ⟨q, i, a, h⟩ := finishEntry_only s p e rest o data
  exact h ▸ .of_eq rfl rfl rfl

theorem finishEntry_inHand (s : State) (p : Progress) (e : Entry) (rest : List Entry) (o : DirOutcome) (data : List Byte) :
    (s.finishEntry p e rest o data).inHand = s.inHand := by
  obtain ⟨q, i, a, h⟩ := finishEntry_only s p e rest o data
  rw [h]

theorem waits_withhold {d : Directive} (hd : directiveOf i = some d) (s : State) (ps : List Byte) :
    d.waits s.withhold ps = d.waits s ps := by
  cases i <;> simp only [directiveOf, Option.some.injEq, reduceCtorEq] at hd <;> subst hd <;>
    simp [noWait, waitsForStation, waitsForPath, State.handles]

theorem directive_segments {d : Directive} (hd : directiveOf i = some d) (h : SegmentInv s) (hc : SegmentContext s) :
    SegmentInv (d.run s) := by
  have formed {v : State} (hv : SegmentInv v) (hs : assocSorted v.stations = true) (p e rest o data) :
      SegmentInv (v.finishEntry p e rest o data) :=
    hv.kept hs (finishEntry_opens v p e rest o data) fun q hq => finishEntry_inHand v p e rest o data ▸ hq
  unfold Directive.run
  rcases runDirective_cases d.code d.length d.waits d.rule s with heq | ⟨p, e, rest, -, -, -, hrun⟩
  · rwa [heq]
  · rcases hrun with ⟨-, heq⟩ | ⟨-, -, heq⟩ | ⟨-, hwait, heq⟩ <;> rw [heq]
    · exact formed h hc.pages.stations _ _ _ _ _
    · exact h.kept hc.pages.stations (.of_eq rfl rfl rfl) fun _ hq => hq
    · have withheld : SegmentInv s.withhold := h.kept hc.pages.stations (withhold_opens s) fun q hq => by simpa using hq
      refine formed (rule_segments hd withheld hc.withhold (State.withhold_failureSignal s) ?_)
        ((rule_pages hd s.withhold e.params).sorted hc.withhold.pages).stations _ _ _ _ _
      rw [waits_withhold hd, hwait]

theorem handOff_segments (h : SegmentInv s) (hc : SegmentContext s) (ht : exec .handOff s = .next t) : SegmentInv t := by
  rcases handOff_cases ht with rfl | ⟨p, hp, ⟨-, rfl⟩ | ⟨-, rfl⟩⟩
  · exact h
  · refine (segmentInv_iff _).2 ⟨?_, nofun⟩
    have same : s.handN p = s.channelN p.slot p.channel := rfl
    have placed : SegmentsOk (s.place p) :=
      placeSamples_segments p (same ▸ h.hand p hp) _ _ s ((segmentInv_iff s).1 h).1 hc.pages same.symm
    refine placed.kept ?_ (.of_eq rfl rfl rfl)
    exact (placeSamples_stations p _ _ _ s).sorted hc.pages.stations
  · refine h.kept hc.pages.stations (.of_evolve ?_ ?_ ((StationsEvolve.modifyStation s p.slot fun a => .count ?_).comp (.of_eq rfl)))
      nofun
    · simp
    · simp
    · simp only [forall_mem_stationCounters, bump_le, true_and]
      tauto

/-- A packet newly in hand is of a configured channel, whose rate code fits the plan (R75, R115). -/
theorem arbiterTake_segments (h : SegmentInv s) (hc : SegmentContext s) (ht : exec .arbiterTake s = .next t) : SegmentInv t := by
  have evolved := exec_stations rfl ht
  have plan : t.plan = s.plan := (exec_kept (by simp) ht).plan (by simp)
  obtain ⟨records, -, -, -⟩ := (exec_untouched ht).records rfl
  have kept : OpensKept s t := .of_evolve records plan evolved
  refine (segmentInv_iff t).2 ⟨((segmentInv_iff s).1 h).1.kept hc.pages.stations kept, fun q hq => ?_⟩
  rw [kept.same]
  rcases arbiterTake_cases ht with rfl | ⟨p, bs, rest, hfree, -, rfl⟩
  · exact h.hand q hq
  · have free : (s.take p).inHand = none := by simp [State.take, hfree]
    rcases handlePacket_cases (s.take p) p bs with heq | heq | ⟨slot, a, b, ha, -, heq | ⟨q', hslot, hrate, heq⟩⟩ <;> rw [heq] at hq
    · simp [free] at hq
    · simp [free] at hq
    · simp [free] at hq
    · obtain rfl := Option.some.inj hq
      have found : s.station q'.slot = some a := by
        rw [hslot]
        simpa [State.take, State.station] using ha
      rw [channelN_of_station found]
      exact nOf_pos hrate (hc.plan.fits _ a (mem_of_assocGet found) _)

theorem exec_segments (h : SegmentInv s) (hc : SegmentContext s) (ht : exec i s = .next t) : SegmentInv t := by
  cases hd : directiveOf i with
  | some d =>
    rw [exec_directive hd, Host.Outcome.next.injEq] at ht
    exact ht ▸ directive_segments hd h hc
  | none =>
    by_cases hpower : ∃ straps, i = .powerOnReset straps
    · obtain ⟨straps, rfl⟩ := hpower
      exact Host.Outcome.next.inj ht ▸ segmentInv_poweredOn s straps
    have notReset (straps) : i ≠ .powerOnReset straps := fun heq => hpower ⟨straps, heq⟩
    by_cases htake : i = .arbiterTake
    · exact arbiterTake_segments h hc (htake ▸ ht)
    by_cases hoff : i = .handOff
    · exact handOff_segments h hc (hoff ▸ ht)
    have quiet : setsStations i = false := by cases i <;> simp_all [setsStations, directiveOf]
    have plan : t.plan = s.plan := (exec_kept notReset ht).plan (by rintro rfl; cases hd)
    have hand : setsHand i = false := by cases i <;> simp_all [setsHand]
    refine h.kept hc.pages.stations ?_ fun q hq => (exec_untouched ht).hand hand ▸ hq
    by_cases hr : setsRecords i = false
    · obtain ⟨records, -, -, -⟩ := (exec_untouched ht).records hr
      exact .of_evolve records plan (exec_stations quiet ht)
    cases i <;> simp only [setsRecords, not_true_eq_false, directiveOf, reduceCtorEq] at hr hd
    case powerOnReset straps => exact absurd rfl (notReset straps)
    case handOff => exact absurd rfl hoff
    case timeMark =>
      rcases timeMark_cases ht with rfl | ⟨-, rfl⟩
      · refine ((withhold_opens s).comp ?_).comp (closeEvaluation_opens _)
        exact .of_eq (by simp) (by simp) (by simp)
      · exact .of_eq (by simp) (by simp) (by simp)
    case closeTimeReached =>
      rcases closeTimeReached_cases ht with rfl | rfl
      · exact .rfl'
      · exact (withhold_opens s).comp (closeEvaluation_opens _)
    case stallTimerExpiry => exact Host.Outcome.next.inj ht ▸ stallTimerExpiry_opens s
    case grant =>
      rcases grant_cases ht with rfl | ⟨src, rfl⟩
      · exact .rfl'
      · rcases grantSource_cases s src with ⟨_, _, _, heq⟩ | heq <;> rw [heq]
        · exact .of_eq rfl rfl rfl
        · rcases grantOwn_cases s with heq | ⟨j, rest, r, e, tx, -, -, hget, -, heq⟩ | ⟨e, tx, -, heq⟩ <;> rw [heq]
          · exact .of_eq rfl rfl rfl
          · exact .replace (j := j) (r' := { r with state := .emitting }) (by simp) rfl rfl (.of_eq rfl)
          · exact .of_eq rfl rfl rfl
    case fragmentCompletion =>
      rcases fragmentCompletion_cases ht with rfl | rfl
      · exact .rfl'
      · have ended : OpensKept s { s with transmitting := none } := .of_eq rfl rfl rfl
        exact ended.comp (completeFragment_opens hc.emitting)

theorem SegmentInv.run (h : SegmentInv s) (d : Nat) : SegmentInv (s.run d) := by
  have same : SameN s (s.run d) := .of_rates rfl fun slot => by
    rw [show (s.run d).station slot = (s.station slot).map _ from assocGet_map _ _ _]
    cases s.station slot with
    | none => exact .none
    | some a => exact .some fun _ => rfl
  exact ⟨fun j r hr ho k c => by rw [same]; exact h.segments j r hr ho k c, fun p hp => by rw [same]; exact h.hand p hp⟩

/-- Settles O59: each command leaves the segments of the Open records as `OpensKept` says, empties those of the channels whose n it
sets, or places the samples of a packet one by one. -/
theorem openSegmentsStaySound : Obligations.OpenSegmentsStaySound := by
  intro s t hplan hstore hpage h hstep
  have hc := SegmentContext.of_invs hplan hstore hpage
  have queued (u : State) (p : List Instr) (k : Nat) (hu : SegmentInv u) (sorted : assocSorted u.stations = true) :
      SegmentInv { u with pending := p, ties := k } := hu.kept sorted (.of_eq rfl rfl rfl) fun _ hq => hq
  rcases step_cases hstep with rfl | ⟨c, rest, hexec⟩
  · rcases idleStep_cases s with ⟨-, heq⟩ | ⟨c, -, k, -, heq⟩
    · exact heq ▸ h.run _
    · exact heq ▸ queued s [c] k h hc.pages.stations
  · refine exec_segments (queued s rest s.ties h hc.pages.stations) ?_ hexec
    exact ⟨hc.plan.of_changes rfl (.of_eq rfl), ⟨hc.pages.stations, hc.pages.records, hc.pages.segments⟩, hc.idle, hc.emitting⟩

end Sys2Proof.Machine
end

section
/-! What the window, the closed-epoch queue and the Emitter hold of the epoch records, and what each operation of the store makes of
it (R55, R77, R80 to R84, R93, R128). -/

namespace Sys2Proof.Machine

variable {i : Instr} {s t u : State}

/-! ## The records' states and epoch numbers -/

/-- The epoch numbers of the Open records, in the records' order. -/
def openNumbers (rs : Assoc EpochRecord) : List Nat := (rs.filter (fun p => p.2.inState .opened)).map (·.2.number)

theorem openNumbers_perm {rs qs : Assoc EpochRecord} (h : rs.Perm qs) : (openNumbers rs).Perm (openNumbers qs) :=
  (h.filter _).map _

theorem openNumbers_cons_opened {j : Nat} {r : EpochRecord} (h : r.state = .opened) (rs : Assoc EpochRecord) :
    openNumbers ((j, r) :: rs) = r.number :: openNumbers rs := by
  simp [openNumbers, EpochRecord.inState, h]

theorem openNumbers_cons_other {j : Nat} {r : EpochRecord} (h : r.state ≠ .opened) (rs : Assoc EpochRecord) :
    openNumbers ((j, r) :: rs) = openNumbers rs := by
  simp [openNumbers, EpochRecord.inState, h]

theorem length_openNumbers (s : State) : (openNumbers s.records).length = s.openCount := by
  rw [openNumbers, List.length_map, State.openCount, State.countRecords, List.countP_eq_length_filter]

theorem numbers_openRecords_perm (s : State) : (s.openRecords.map (·.2.number)).Perm (openNumbers s.records) :=
  (byEpoch_perm _).map _

/-- A record's state and epoch number. -/
def EpochRecord.tag (r : EpochRecord) : RecordState × Nat := (r.state, r.number)

/-- The state and the epoch number of record `j`, if it is not Free. -/
def State.tagOf (s : State) (j : Nat) : Option (RecordState × Nat) := (assocGet s.records j).map EpochRecord.tag

/-- Whether record `j` is in state `x`. -/
def State.recordIs (s : State) (j : Nat) (x : RecordState) : Prop := ∃ r, assocGet s.records j = some r ∧ r.state = x

theorem recordIs_iff {j : Nat} {x : RecordState} : s.recordIs j x ↔ (s.tagOf j).map Prod.fst = some x := by
  simp [State.recordIs, State.tagOf, EpochRecord.tag]

theorem epochOf_eq (j : Nat) : s.epochOf j = ((s.tagOf j).map Prod.snd).getD 0 := by
  simp [State.epochOf, State.tagOf, Function.comp_def, EpochRecord.tag]

theorem recordIs_unique {j : Nat} {x y : RecordState} (hx : s.recordIs j x) (hy : s.recordIs j y) : x = y := by
  obtain ⟨r, hr, rfl⟩ := hx
  obtain ⟨q, hq, rfl⟩ := hy
  rw [hr] at hq
  cases hq
  rfl

/-- The records have the same numbers, states and epochs. -/
structure SameTags (s t : State) : Prop where
  listed : RecordsListed s.records → RecordsListed t.records
  opens  : RecordsListed s.records → (openNumbers t.records).Perm (openNumbers s.records)
  tags   : ∀ j, t.tagOf j = s.tagOf j

theorem SameTags.of_eq (h : t.records = s.records) : SameTags s t where
  listed := fun hs => h ▸ hs
  opens := fun _ => h ▸ .refl _
  tags := fun j => by rw [State.tagOf, State.tagOf, h]

theorem SameTags.comp (h : SameTags s t) (k : SameTags t u) : SameTags s u :=
  ⟨fun hs => k.listed (h.listed hs), fun hs => (k.opens (h.listed hs)).trans (h.opens hs), fun j => (k.tags j).trans (h.tags j)⟩

theorem SameTags.recordIs (h : SameTags s t) (j : Nat) (x : RecordState) : t.recordIs j x ↔ s.recordIs j x := by
  rw [recordIs_iff, recordIs_iff, h.tags]

/-- A record replaced by one of the same state and epoch. -/
theorem SameTags.replace {j : Nat} {r r' : EpochRecord} (hr : assocGet s.records j = some r) (htag : r'.tag = r.tag)
    (ht : t.records = assocPut s.records j r') : SameTags s t where
  listed := fun hs => by
    rw [ht]
    exact hs.put (hs.sixteen j r (mem_of_assocGet hr)) _
  opens := fun hs => by
    obtain ⟨hstate, hnumber⟩ := Prod.mk.inj htag
    rw [ht]
    refine ((openNumbers_perm (assocPut_perm hs.sorted j r')).trans ?_).trans
      (openNumbers_perm (perm_cons_assocErase hs.sorted hr)).symm
    refine .of_eq ?_
    by_cases ho : r.state = .opened
    · rw [openNumbers_cons_opened ho, openNumbers_cons_opened (hstate.trans ho), hnumber]
    · rw [openNumbers_cons_other ho, openNumbers_cons_other (hstate ▸ ho)]
  tags := fun k => by
    rw [State.tagOf, State.tagOf, ht, assocGet_put]
    split
    next hk => rw [hk, hr, Option.map_some, Option.map_some, htag]
    next => rfl

theorem SameTags.foldl {α : Type} {f : State → α → State} (h : ∀ s a, SameTags s (f s a)) (l : List α) (s : State) :
    SameTags s (l.foldl f s) := by
  induction l generalizing s with
  | nil => exact .of_eq rfl
  | cons a t ih => exact (h s a).comp (ih (f s a))

theorem emptySegment_tags (s : State) (j slot : Nat) (c : Fin 4) (n : Nat) : SameTags s (s.emptySegment j slot c n) := by
  unfold State.emptySegment
  split
  next r hr => exact .replace (r' := r.putSegment slot c (Segment.empty n)) hr rfl rfl
  next => exact .of_eq rfl

theorem endStarved_tags (s : State) : SameTags s s.endStarved := .of_eq (by simp)

theorem emptyOpen_tags (s : State) (slot : Nat) (cs : List (Fin 4)) (n : Nat) : SameTags s (s.emptyOpen slot cs n) :=
  (SameTags.foldl (fun s (p : Nat × EpochRecord) => .foldl (fun s c => emptySegment_tags s p.1 slot c n) cs s) _ s).comp
    (endStarved_tags _)

theorem freeSegmentPages_tags (s : State) (j slot : Nat) (c : Fin 4) : SameTags s (s.freeSegmentPages j slot c) := by
  unfold State.freeSegmentPages
  split
  next r hr => exact .replace (r' := r.putSegment slot c { r.segment slot c with pages := [] }) hr rfl rfl
  next => exact .of_eq rfl

theorem freeFragmentPages_tags (s : State) (e : Emission) : SameTags s (s.freeFragmentPages e) :=
  .foldl (fun s slot => .foldl (fun s c => freeSegmentPages_tags s e.record slot c) channels4 s) _ s

theorem placeSample_tags (hs : RecordsListed s.records) (p : InHand) (n gs : Nat) (v : Sample) :
    SameTags s (s.placeSample p n gs v) := by
  rcases placeSample_records hs.sorted p n gs v with heq | ⟨j, r, g, hr, -, -, heq⟩
  · exact .of_eq heq
  · exact .replace (r' := r.putSegment p.slot p.channel g) hr rfl heq

theorem placeSamples_tags (p : InHand) (n : Nat) (vs : List Sample) (gs : Nat) (s : State) (hs : RecordsListed s.records) :
    SameTags s (placeSamples p n gs vs s) := by
  induction vs generalizing gs s with
  | nil => exact .of_eq rfl
  | cons v vs ih =>
    have first := placeSample_tags hs p n gs v
    exact first.comp (ih _ _ (first.listed hs))

/-! ## The shape of the store -/

/-- The invariant of the store in terms of the records' states and epoch numbers, without the signal that is still to take effect. -/
structure StoreShape (s : State) : Prop where
  plan     : s.plan.inRange
  listed   : RecordsListed s.records
  present  : s.eLo.isSome = true ↔ s.store ≠ .idle
  window   : ∀ lo, s.eLo = some lo → (openNumbers s.records).Perm (List.range' lo s.openCount) ∧ s.openCount ≤ s.plan.windowDepth
  noWindow : s.eLo = none → s.openCount = 0
  queued   : ∀ j, j ∈ s.closedQueue ↔ s.recordIs j .closed
  rising   : s.queuedEpochs.Pairwise (· < ·)
  below    : ∀ lo, s.eLo = some lo → ∀ e ∈ s.queuedEpochs, e < lo
  emitting : ∀ j, s.recordIs j .emitting ↔ ∃ e, s.emitter.emission = some e ∧ e.record = j

/-- A failure signal stands only in Failed, under Withhold, with the store Ready or Starved (R55). -/
def SignalOk (s : State) : Prop :=
  s.failureSignal = true → s.ref.state = .failed ∧ s.plan.failureAction = .withhold ∧ (s.store = .ready ∨ s.store = .starved)

theorem storeInv_iff (s : State) : StoreInv s ↔ StoreShape s ∧ SignalOk s := by
  have window_iff (lo : Nat) : s.openRecords.map (·.2.number) = List.range' lo s.openCount ↔
      (openNumbers s.records).Perm (List.range' lo s.openCount) :=
    ⟨fun h => h ▸ (numbers_openRecords_perm s).symm, numbers_openRecords_of_perm⟩
  constructor
  · intro h
    refine ⟨⟨h.plan, ⟨h.sorted, h.sixteen⟩, h.present, fun lo hlo => ?_, h.noWindow, h.queued, h.rising, h.below, h.emitting⟩,
      h.signal⟩
    obtain ⟨numbers, atMost⟩ := h.window lo hlo
    exact ⟨(window_iff lo).1 numbers, atMost⟩
  · rintro ⟨h, signal⟩
    refine ⟨h.plan, h.listed.sorted, h.listed.sixteen, h.present, fun lo hlo => ?_, h.noWindow, h.queued, h.rising, h.below, signal,
      h.emitting⟩
    obtain ⟨numbers, atMost⟩ := h.window lo hlo
    exact ⟨(window_iff lo).2 numbers, atMost⟩

/-- Nothing of what the shape speaks of has changed. -/
structure SameShape (s t : State) : Prop extends SameTags s t where
  plan     : t.plan = s.plan
  eLo      : t.eLo = s.eLo
  idle     : t.store = .idle ↔ s.store = .idle
  queue    : t.closedQueue = s.closedQueue
  emission : t.emitter.emission.map (·.record) = s.emitter.emission.map (·.record)

theorem SameShape.of_frame (tags : SameTags s t) (frame : EmissionFrame s t) (hq : t.closedQueue = s.closedQueue)
    (he : t.emitter = s.emitter) : SameShape s t := ⟨tags, frame.plan, frame.eLo, frame.idle, hq, by rw [he]⟩

theorem SameShape.comp (h : SameShape s t) (k : SameShape t u) : SameShape s u :=
  ⟨h.toSameTags.comp k.toSameTags, k.plan.trans h.plan, k.eLo.trans h.eLo, k.idle.trans h.idle, k.queue.trans h.queue,
    k.emission.trans h.emission⟩

/-- The epochs that a queue of records names, when these have the same epochs in both states. -/
theorem map_epochOf_congr {q : List Nat} (tags : ∀ j ∈ q, t.tagOf j = s.tagOf j) : q.map t.epochOf = q.map s.epochOf :=
  List.map_congr_left fun j hj => by rw [epochOf_eq, epochOf_eq, tags j hj]

theorem StoreShape.kept (h : StoreShape s) (k : SameShape s t) : StoreShape t := by
  have opens := k.opens h.listed
  have count : t.openCount = s.openCount := by rw [← length_openNumbers, ← length_openNumbers, opens.length_eq]
  have epochs : t.queuedEpochs = s.queuedEpochs := by
    rw [State.queuedEpochs, State.queuedEpochs, k.queue]
    exact map_epochOf_congr fun j _ => k.tags j
  refine ⟨k.plan ▸ h.plan, k.listed h.listed, ?_, fun lo hlo => ?_, fun hlo => count.trans (h.noWindow (k.eLo ▸ hlo)), fun j => ?_,
    epochs ▸ h.rising, fun lo hlo => epochs ▸ h.below lo (k.eLo ▸ hlo), fun j => ?_⟩
  · rw [k.eLo, Ne, k.idle]
    exact h.present
  · rw [count, k.plan]
    obtain ⟨numbers, atMost⟩ := h.window lo (k.eLo ▸ hlo)
    exact ⟨opens.trans numbers, atMost⟩
  · rw [k.queue, k.recordIs]
    exact h.queued j
  · have emits (u : State) : (∃ e, u.emitter.emission = some e ∧ e.record = j) ↔ u.emitter.emission.map (·.record) = some j :=
      Option.map_eq_some_iff.symm
    rw [k.recordIs, h.emitting, emits, emits, k.emission]

/-! ## A record freed -/

theorem RecordsListed.erase {rs : Assoc EpochRecord} (h : RecordsListed rs) (j : Nat) : RecordsListed (assocErase rs j) :=
  ⟨assocSorted_erase j h.sorted, fun k r hr => h.sixteen k r (mem_assocErase hr).1⟩

/-- A record that is not Open is freed: the Open ones are as before. -/
theorem openNumbers_erase {rs : Assoc EpochRecord} (hs : assocSorted rs = true) {j : Nat}
    (hj : ∀ r, assocGet rs j = some r → r.state ≠ .opened) : (openNumbers (assocErase rs j)).Perm (openNumbers rs) := by
  cases hr : assocGet rs j with
  | none => rw [assocErase_of_free hr]
  | some r =>
    refine .trans ?_ (openNumbers_perm (perm_cons_assocErase hs hr)).symm
    rw [openNumbers_cons_other (hj r hr)]

/-- The state with record `j` freed, its pages apart. -/
def State.without (s : State) (j : Nat) : State := { s with records := assocErase s.records j }

theorem tagOf_without (j k : Nat) : (s.without j).tagOf k = if k = j then none else s.tagOf k := by
  rw [State.tagOf, State.without, assocGet_erase]
  split <;> rfl

theorem recordIs_without {j k : Nat} {x : RecordState} : (s.without j).recordIs k x ↔ k ≠ j ∧ s.recordIs k x := by
  rw [recordIs_iff, recordIs_iff, tagOf_without]
  split <;> simp_all

/-- The closed-epoch queue names no record twice (R82). -/
theorem StoreShape.queue_nodup (h : StoreShape s) : s.closedQueue.Nodup := by
  have distinct : (s.closedQueue.map s.epochOf).Nodup := h.rising.imp fun hlt => Nat.ne_of_lt hlt
  exact distinct.of_map _

/-- The head of the closed-epoch queue is freed (R140). -/
theorem StoreShape.headFreed (h : StoreShape s) {j : Nat} {rest : List Nat} (hq : s.closedQueue = j :: rest) :
    StoreShape (({ s with closedQueue := rest } : State).without j) := by
  have closed : s.recordIs j .closed := (h.queued j).1 (hq ▸ List.mem_cons_self)
  obtain ⟨fresh, -⟩ := List.nodup_cons.1 (hq ▸ h.queue_nodup)
  have perm := openNumbers_erase h.listed.sorted (j := j) fun r hr ho => by
    cases recordIs_unique closed ⟨r, hr, ho⟩
  have count : (({ s with closedQueue := rest } : State).without j).openCount = s.openCount := by
    rw [← length_openNumbers, ← length_openNumbers]
    exact perm.length_eq
  have epochs : (({ s with closedQueue := rest } : State).without j).queuedEpochs = rest.map s.epochOf :=
    map_epochOf_congr fun k (hk : k ∈ rest) => by
      have other : k ≠ j := fun heq => fresh (heq ▸ hk)
      rw [tagOf_without, if_neg other]
      rfl
  have old : s.queuedEpochs = s.epochOf j :: rest.map s.epochOf := by rw [State.queuedEpochs, hq, List.map_cons]
  have rising := old ▸ h.rising
  refine ⟨h.plan, h.listed.erase j, h.present, fun lo hlo => ?_, fun hlo => count.trans (h.noWindow hlo), fun k => ?_, ?_,
    fun lo hlo e he => ?_, fun k => ?_⟩
  · obtain ⟨numbers, atMost⟩ := h.window lo hlo
    rw [count]
    exact ⟨perm.trans numbers, atMost⟩
  · have queued := h.queued k
    rw [hq, List.mem_cons] at queued
    rw [recordIs_without]
    constructor
    · exact fun hk => ⟨fun heq => fresh (heq ▸ hk), queued.1 (.inr hk)⟩
    · exact fun ⟨hne, hk⟩ => (queued.2 hk).resolve_left hne
  · rw [epochs]
    exact (List.pairwise_cons.1 rising).2
  · rw [epochs] at he
    exact h.below lo hlo e (old ▸ List.mem_cons_of_mem _ he)
  · rw [recordIs_without]
    refine .trans ?_ (h.emitting k)
    refine ⟨fun hk => hk.2, fun hk => ⟨?_, hk⟩⟩
    rintro rfl
    cases recordIs_unique closed hk

/-- The Emitter's record is freed (R137). -/
theorem StoreShape.emissionFreed (h : StoreShape s) {e : Emission} (he : s.emitter.emission = some e) :
    StoreShape (({ s with emitter := .idle } : State).without e.record) := by
  have emitting : s.recordIs e.record .emitting := (h.emitting e.record).2 ⟨e, he, rfl⟩
  have perm := openNumbers_erase h.listed.sorted (j := e.record) fun r hr ho => by
    cases recordIs_unique emitting ⟨r, hr, ho⟩
  have count : (({ s with emitter := .idle } : State).without e.record).openCount = s.openCount := by
    rw [← length_openNumbers, ← length_openNumbers]
    exact perm.length_eq
  have notQueued (k : Nat) (hk : k ∈ s.closedQueue) : k ≠ e.record := by
    rintro rfl
    cases recordIs_unique emitting ((h.queued _).1 hk)
  have epochs : (({ s with emitter := .idle } : State).without e.record).queuedEpochs = s.queuedEpochs :=
    map_epochOf_congr fun k hk => by
      rw [tagOf_without, if_neg (notQueued k hk)]
      rfl
  refine ⟨h.plan, h.listed.erase _, h.present, fun lo hlo => ?_, fun hlo => count.trans (h.noWindow hlo), fun k => ?_,
    epochs ▸ h.rising, fun lo hlo => epochs ▸ h.below lo hlo, fun k => ?_⟩
  · obtain ⟨numbers, atMost⟩ := h.window lo hlo
    rw [count]
    exact ⟨perm.trans numbers, atMost⟩
  · rw [recordIs_without]
    exact ⟨fun hk => ⟨notQueued k hk, (h.queued k).1 hk⟩, fun ⟨_, hk⟩ => (h.queued k).2 hk⟩
  · rw [recordIs_without]
    refine ⟨fun ⟨hne, hk⟩ => absurd ?_ hne, nofun⟩
    obtain ⟨e', he', rfl⟩ := (h.emitting k).1 hk
    rw [he] at he'
    cases he'
    rfl

/-! ## A front epoch opened -/

theorem tagOf_openEpoch (j e k : Nat) : (s.openEpoch j e).tagOf k = if k = j then some (.opened, e) else s.tagOf k := by
  rw [State.tagOf, State.openEpoch, assocGet_put]
  split <;> rfl

/-- The lowest missing front epoch opens in a Free record (R84). -/
theorem StoreShape.openEpoch (h : StoreShape s) {j lo : Nat} (hlo : s.eLo = some lo) (hfree : freeRecordNo s.records = some j)
    (hroom : s.openCount < s.plan.windowDepth) : StoreShape (s.openEpoch j (lo + s.openCount)) := by
  obtain ⟨hnone, hj⟩ := freeRecordNo_eq_some hfree
  have count := openCount_openEpoch hnone (lo + s.openCount)
  have free : s.tagOf j = none := by rw [State.tagOf, hnone]; rfl
  have other (k : Nat) {x : RecordState} (hx : x ≠ .opened) :
      (s.openEpoch j (lo + s.openCount)).recordIs k x ↔ s.recordIs k x := by
    rw [recordIs_iff, recordIs_iff, tagOf_openEpoch]
    split
    next hk =>
      rw [hk, free]
      simp [Ne.symm hx]
    next => exact .rfl
  have epochs : (s.openEpoch j (lo + s.openCount)).queuedEpochs = s.queuedEpochs :=
    map_epochOf_congr fun k hk => by
      rw [tagOf_openEpoch, if_neg]
      rintro rfl
      obtain ⟨r, hr, -⟩ := (h.queued k).1 hk
      rw [hnone] at hr
      cases hr
  refine ⟨h.plan, h.listed.put hj _, h.present, fun lo' hlo' => ?_, fun hlo' => ?_, fun k => ?_, epochs ▸ h.rising,
    fun lo' hlo' => epochs ▸ h.below lo' hlo', fun k => ?_⟩
  · obtain rfl := Option.some.inj (hlo.symm.trans hlo')
    rw [count, List.range'_concat, Nat.one_mul]
    refine ⟨?_, hroom⟩
    exact ((openNumbers_perm (openEpoch_records_perm hnone _)).trans ((h.window lo hlo).1.cons _)).trans
      (List.perm_append_singleton _ _).symm
  · rw [State.openEpoch_eLo, hlo] at hlo'
    cases hlo'
  · rw [other k (by simp)]
    exact h.queued k
  · rw [other k (by simp)]
    exact h.emitting k

theorem StoreShape.openFrontAfterFree (h : StoreShape s) : StoreShape s.openFrontAfterFree := by
  unfold State.openFrontAfterFree
  split
  next lo j hlo hfree =>
    split
    next hroom => exact h.openEpoch hlo hfree hroom.2
    next => exact h
  next => exact h

theorem raise_shape (s : State) (f : EventFlag) : SameShape s (s.raise f) :=
  .of_frame (.of_eq (by simp)) (raise_emission s f) (by simp) (by simp)

theorem endStarved_shape (s : State) : SameShape s s.endStarved :=
  .of_frame (endStarved_tags s) (endStarved_emission s) (by simp) (by simp)

/-- Freeing a record for good, Starved may end and a front epoch may open (R84, R97). -/
theorem freeEmitted_shape {j : Nat} (h : StoreShape (s.without j)) : StoreShape (s.freeEmitted j) := by
  have dropped : SameShape (s.without j) (s.dropRecord j) := by
    unfold State.dropRecord
    split
    next => exact ⟨.of_eq rfl, rfl, rfl, .rfl, rfl, rfl⟩
    next hnone => exact ⟨.of_eq (assocErase_of_free hnone).symm, rfl, rfl, .rfl, rfl, rfl⟩
  exact ((h.kept dropped).kept (endStarved_shape _)).openFrontAfterFree

theorem openFronts_shape (lo k : Nat) (h : StoreShape s) (hlo : s.eLo = some lo) : StoreShape (openFronts lo k s) := by
  induction k generalizing s with
  | zero => exact h
  | succ k ih =>
    unfold openFronts
    split
    next hroom =>
      split
      next j hfree => exact ih (h.openEpoch hlo hfree hroom) hlo
      next => exact h.kept (raise_shape s _)
    next => exact h

end Sys2Proof.Machine
end

section
/-! The close evaluation part by part (R57, R78, R81 to R84): the close of an epoch and of all that are due, the skip, and the window
that opens after them. -/

namespace Sys2Proof.Machine

variable {s t u : State}

/-! ## Previous records retired (R33) -/

/-- A lower E_lo retires nothing that a higher one keeps. -/
theorem retireBelow_retireBelow {lo lo' : Nat} (h : lo ≤ lo') (st : Station) :
    retireBelow lo' (retireBelow lo st) = retireBelow lo' st := by
  cases hp : st.previous with
  | none => simp only [retireBelow, hp]
  | some p =>
    by_cases hlow : p.eSw < lo
    · simp only [retireBelow, hp, hlow, if_true, hlow.trans_le h]
    · simp only [retireBelow, hp, hlow, if_false]

theorem assocMap_assocMap {α : Type} (f g : α → α) (l : Assoc α) : assocMap f (assocMap g l) = assocMap (fun x => f (g x)) l := by
  induction l with
  | nil => rfl
  | cons p t ih => rw [assocMap, assocMap, assocMap, ih]

theorem assocMap_retireBelow {lo lo' : Nat} (h : lo ≤ lo') (sts : Assoc Station) :
    assocMap (retireBelow lo') (assocMap (retireBelow lo) sts) = assocMap (retireBelow lo') sts := by
  rw [assocMap_assocMap]
  exact congrArg (assocMap · sts) (funext (retireBelow_retireBelow h))

theorem assocGet_sectionsOf (sts : Assoc Station) (slot : Nat) :
    assocGet (sectionsOf sts) slot = (assocGet sts slot).map (fun st => { code := st.code, state := st.state }) := by
  induction sts with
  | nil => rfl
  | cons p t ih =>
    obtain ⟨k, st⟩ := p
    rw [sectionsOf, List.map_cons, assocGet, assocGet]
    split
    · rfl
    · exact ih

theorem retireBelow_section (lo : Nat) (st : Station) : (retireBelow lo st).code = st.code ∧ (retireBelow lo st).state = st.state := by
  unfold retireBelow
  split
  · split <;> exact ⟨rfl, rfl⟩
  · exact ⟨rfl, rfl⟩

/-- Retiring previous records changes no section record (R33, R82). -/
theorem sectionsOf_retireBelow (lo : Nat) (sts : Assoc Station) : sectionsOf (assocMap (retireBelow lo) sts) = sectionsOf sts := by
  induction sts with
  | nil => rfl
  | cons p t ih =>
    obtain ⟨code, state⟩ := retireBelow_section lo p.2
    rw [assocMap, sectionsOf, List.map_cons, code, state]
    exact congrArg _ ih

/-! ## The close of an epoch (R82) -/

/-- Record `r` as the part in state `s` closes it, with the number of epochs skipped since the last close (R82). -/
def EpochRecord.closedIn (r : EpochRecord) (s : State) (skipped : Nat) : EpochRecord :=
  { r with
    state := .closed, refAtClose := some s.ref.state, storeAtClose := some s.store, sections := some (sectionsOf s.stations)
    skipped := skipped }

theorem closeRecord_of_present {j : Nat} {r : EpochRecord} (h : assocGet s.records j = some r) :
    s.closeRecord j =
      { s with
        records := assocPut s.records j (r.closedIn s s.pendingSkip), pendingSkip := 0, closedQueue := s.closedQueue ++ [j]
        eLo := some (r.number + 1), stations := assocMap (retireBelow (r.number + 1)) s.stations } := by
  rw [State.closeRecord, h]
  rfl

/-- Records `l`, of the epochs from `lo` on, are closed one after the other: what that makes of the state. -/
structure EpochsClosed (lo : Nat) (l : List (Nat × EpochRecord)) (s t : State) : Prop where
  frame  : t = { s with
    eLo := some (lo + l.length), closedQueue := s.closedQueue ++ l.map (·.1), pendingSkip := if l = [] then s.pendingSkip else 0
    records := t.records, stations := if l = [] then s.stations else assocMap (retireBelow (lo + l.length)) s.stations }
  closed : ∀ (k j : Nat) (r : EpochRecord), l[k]? = some (j, r) → assocGet t.records j = some (r.closedIn s (if k = 0 then s.pendingSkip else 0))
  others : ∀ j, j ∉ l.map (·.1) → assocGet t.records j = assocGet s.records j

theorem EpochsClosed.nil {lo : Nat} (h : s.eLo = some lo) : EpochsClosed lo [] s s where
  frame := by simp [← h]
  closed := nofun
  others := fun _ _ => rfl

theorem EpochsClosed.cons {lo j : Nat} {r : EpochRecord} {l : List (Nat × EpochRecord)} (hr : assocGet s.records j = some r)
    (hn : r.number = lo) (hj : j ∉ l.map (·.1)) (h : EpochsClosed (lo + 1) l (s.closeRecord j) t) :
    EpochsClosed lo ((j, r) :: l) s t := by
  have first := closeRecord_of_present hr
  have retired := assocMap_retireBelow (show lo + 1 ≤ lo + (l.length + 1) by omega) s.stations
  refine ⟨?_, fun k j' r' hk => ?_, fun j' hj' => ?_⟩
  · rw [h.frame, first, hn]
    by_cases hl : l = []
    · simp [hl]
    · simp [hl, retired, Nat.add_comm 1, Nat.add_assoc]
  · cases k with
    | zero =>
      cases hk
      rw [h.others j hj, first]
      exact assocGet_put_same _ _ _
    | succ k =>
      have later := h.closed k j' r' hk
      rw [later, first]
      simp only [EpochRecord.closedIn, sectionsOf_retireBelow, Nat.succ_ne_zero, if_false]
      split <;> rfl
  · obtain ⟨hne, hj'⟩ := not_or.1 (mt List.mem_cons.2 hj')
    rw [h.others j' hj', first]
    exact assocGet_put_other _ _ hne

theorem foldl_closeRecord {lo : Nat} (l : List (Nat × EpochRecord)) (hlo : s.eLo = some lo)
    (hl : ∀ q ∈ l, assocGet s.records q.1 = some q.2) (hd : (l.map (·.1)).Nodup)
    (hn : l.map (·.2.number) = List.range' lo l.length) :
    EpochsClosed lo l s (l.foldl (fun s p => s.closeRecord p.1) s) := by
  induction l generalizing s lo with
  | nil => exact .nil hlo
  | cons q l ih =>
    obtain ⟨hq, hd⟩ := List.nodup_cons.1 hd
    rw [List.map_cons, List.length_cons, List.range'_succ, List.cons.injEq] at hn
    obtain ⟨number, hn⟩ := hn
    have present := hl q List.mem_cons_self
    have first := closeRecord_of_present present
    refine .cons present number hq (ih ?_ (fun x hx => ?_) hd hn)
    · rw [first, number]
    · rw [first, assocGet_put_other]
      · exact hl x (List.mem_cons_of_mem _ hx)
      · exact fun heq => hq (List.mem_map.2 ⟨x, hx, heq⟩)

/-! ## The shape of the store through a close -/

/-- Opened records are those of the window: the lowest one is closed, and the window goes on from the next epoch (R80, R82). -/
theorem StoreShape.closeRecord (h : StoreShape s) {lo j : Nat} {r : EpochRecord} (hlo : s.eLo = some lo)
    (hr : assocGet s.records j = some r) (ho : r.state = .opened) (hn : r.number = lo) :
    StoreShape (s.closeRecord j) ∧ (s.closeRecord j).openCount + 1 = s.openCount := by
  have eq := closeRecord_of_present hr
  have opened : s.recordIs j .opened := ⟨r, hr, ho⟩
  have before := (openNumbers_perm (perm_cons_assocErase h.listed.sorted hr)).trans
    (.of_eq (openNumbers_cons_opened ho (assocErase s.records j)))
  have after : (openNumbers (s.closeRecord j).records).Perm (openNumbers (assocErase s.records j)) := by
    rw [eq]
    refine (openNumbers_perm (assocPut_perm h.listed.sorted j _)).trans (.of_eq ?_)
    exact openNumbers_cons_other (by simp [EpochRecord.closedIn]) _
  have count : (s.closeRecord j).openCount + 1 = s.openCount := by
    rw [← length_openNumbers, ← length_openNumbers, before.length_eq, after.length_eq, List.length_cons]
  obtain ⟨numbers, atMost⟩ := h.window lo hlo
  have rest : (openNumbers (s.closeRecord j).records).Perm (List.range' (lo + 1) (s.closeRecord j).openCount) := by
    have whole : (lo :: openNumbers (s.closeRecord j).records).Perm (lo :: List.range' (lo + 1) (s.closeRecord j).openCount) := by
      rw [← List.range'_succ, count]
      exact ((after.cons lo).trans (hn ▸ before.symm)).trans numbers
    exact whole.cons_inv
  have tags (k : Nat) : (s.closeRecord j).tagOf k = if k = j then some (.closed, lo) else s.tagOf k := by
    rw [State.tagOf, eq, assocGet_put]
    split
    · rw [← hn]
      rfl
    · rfl
  have others (k : Nat) (hk : k ≠ j) (x : RecordState) : (s.closeRecord j).recordIs k x ↔ s.recordIs k x := by
    rw [recordIs_iff, recordIs_iff, tags, if_neg hk]
  have closed : (s.closeRecord j).recordIs j .closed := by
    rw [recordIs_iff, tags, if_pos rfl]
    rfl
  have notQueued : j ∉ s.closedQueue := fun hj => by cases recordIs_unique opened ((h.queued j).1 hj)
  have epochs : (s.closeRecord j).queuedEpochs = s.queuedEpochs ++ [lo] := by
    have queue : (s.closeRecord j).closedQueue = s.closedQueue ++ [j] := by rw [eq]
    rw [State.queuedEpochs, queue, List.map_append, List.map_singleton, epochOf_eq, tags, if_pos rfl]
    refine congrArg (· ++ [lo]) (map_epochOf_congr fun k hk => ?_)
    have hne : k ≠ j := fun heq => notQueued (heq ▸ hk)
    rw [tags, if_neg hne]
  have eLo : (s.closeRecord j).eLo = some (lo + 1) := by rw [eq, hn]
  have plan : (s.closeRecord j).plan = s.plan := by rw [eq]
  refine ⟨⟨plan ▸ h.plan, ?_, ?_, fun lo' hlo' => ?_, fun hlo' => ?_, fun k => ?_, ?_, fun lo' hlo' e he => ?_, fun k => ?_⟩, count⟩
  · rw [eq]
    exact h.listed.put (h.listed.sixteen j r (mem_of_assocGet hr)) _
  · have present := h.present
    rw [hlo] at present
    rw [eq]
    simpa using present
  · rw [eLo] at hlo'
    cases hlo'
    exact ⟨rest, by rw [plan]; omega⟩
  · rw [eLo] at hlo'
    cases hlo'
  · rw [eq, List.mem_append, List.mem_singleton, ← eq]
    by_cases hk : k = j
    · rw [hk]
      simp [closed]
    · rw [others k hk, ← h.queued k]
      simp [hk]
  · rw [epochs, List.pairwise_append]
    exact ⟨h.rising, List.pairwise_singleton _ _, fun a ha b hb => by
      rw [List.mem_singleton.1 hb]
      exact h.below lo hlo a ha⟩
  · rw [eLo] at hlo'
    cases hlo'
    rw [epochs, List.mem_append, List.mem_singleton] at he
    rcases he with he | rfl
    · exact (h.below lo hlo e he).trans (Nat.lt_succ_self lo)
    · exact Nat.lt_succ_self _
  · have emitter : (s.closeRecord j).emitter = s.emitter := by rw [eq]
    rw [emitter]
    refine .trans ?_ (h.emitting k)
    by_cases hk : k = j
    · subst hk
      exact iff_of_false (fun hx => nomatch recordIs_unique closed hx) fun hx => nomatch recordIs_unique opened hx
    · exact others k hk _

theorem foldl_closeRecord_shape (l : List (Nat × EpochRecord)) {lo : Nat} (h : StoreShape s) (hlo : s.eLo = some lo)
    (hl : ∀ q ∈ l, assocGet s.records q.1 = some q.2 ∧ q.2.state = .opened) (hd : (l.map (·.1)).Nodup)
    (hn : l.map (·.2.number) = List.range' lo l.length) :
    StoreShape (l.foldl (fun s p => s.closeRecord p.1) s) ∧
      (l.foldl (fun s p => s.closeRecord p.1) s).openCount + l.length = s.openCount := by
  induction l generalizing s lo with
  | nil => exact ⟨h, rfl⟩
  | cons q l ih =>
    obtain ⟨hq, hd⟩ := List.nodup_cons.1 hd
    rw [List.map_cons, List.length_cons, List.range'_succ, List.cons.injEq] at hn
    obtain ⟨number, hn⟩ := hn
    obtain ⟨present, opened⟩ := hl q List.mem_cons_self
    have first := closeRecord_of_present present
    obtain ⟨shape, count⟩ := h.closeRecord hlo present opened number
    have later : ∀ x ∈ l, assocGet (s.closeRecord q.1).records x.1 = some x.2 ∧ x.2.state = .opened := fun x hx => by
      obtain ⟨hget, hopen⟩ := hl x (List.mem_cons_of_mem _ hx)
      rw [first, assocGet_put_other]
      · exact ⟨hget, hopen⟩
      · exact fun heq => hq (List.mem_map.2 ⟨x, hx, heq⟩)
    obtain ⟨last, total⟩ := ih shape (by rw [first, number]) later hd hn
    refine ⟨last, ?_⟩
    rw [List.foldl_cons, List.length_cons]
    omega

/-! ## The epochs that are due (R81) -/

/-- The Open records whose close time has been reached, in increasing epoch number (R81). -/
def State.dueRecords (s : State) : List (Nat × EpochRecord) :=
  s.openRecords.filter (fun p => decide (s.plan.closeTime p.2.number ≤ s.ref.ntNow))

theorem closeTime_mono (p : Plan) {e e' : Nat} (h : e ≤ e') : p.closeTime e ≤ p.closeTime e' :=
  Nat.add_le_add_right (Nat.mul_le_mul_right _ (Nat.succ_le_succ h)) _

/-- Of consecutive epochs those up to a bound come first. -/
theorem numbers_of_due (p : Plan) (nt : Nat) (l : List (Nat × EpochRecord)) {lo : Nat}
    (hn : l.map (·.2.number) = List.range' lo l.length) :
    let due := l.filter (fun q => decide (p.closeTime q.2.number ≤ nt))
    due.map (·.2.number) = List.range' lo due.length ∧ (due.length < l.length → nt < p.closeTime (lo + due.length)) := by
  induction l generalizing lo with
  | nil => exact ⟨rfl, nofun⟩
  | cons q l ih =>
    rw [List.map_cons, List.length_cons, List.range'_succ, List.cons.injEq] at hn
    obtain ⟨number, hn⟩ := hn
    by_cases hq : p.closeTime q.2.number ≤ nt
    · obtain ⟨numbers, next⟩ := ih hn
      have kept : (q :: l).filter (fun q => decide (p.closeTime q.2.number ≤ nt)) =
          q :: l.filter (fun q => decide (p.closeTime q.2.number ≤ nt)) := List.filter_cons_of_pos (decide_eq_true hq)
      simp only [kept, List.map_cons, List.length_cons, List.range'_succ, number, numbers, true_and]
      intro hlt
      have step := next (Nat.lt_of_succ_lt_succ hlt)
      rwa [Nat.add_assoc, Nat.add_comm 1] at step
    · have none : l.filter (fun q => decide (p.closeTime q.2.number ≤ nt)) = [] := by
        refine List.filter_eq_nil_iff.2 fun x hx hdue => hq ?_
        have later : x.2.number ∈ List.range' (lo + 1) l.length := hn ▸ List.mem_map_of_mem hx
        have bound : q.2.number ≤ x.2.number := by
          have := (List.mem_range'_1.1 later).1
          omega
        exact (closeTime_mono p bound).trans (of_decide_eq_true hdue)
      have dropped : (q :: l).filter (fun q => decide (p.closeTime q.2.number ≤ nt)) = [] :=
        (List.filter_cons_of_neg (by simpa using hq)).trans none
      simp only [dropped]
      exact ⟨rfl, fun _ => number ▸ Nat.not_le.1 hq⟩

/-- What closing all due epochs makes of a window from `lo`. -/
structure DueClosed (lo : Nat) (s t : State) : Prop extends EpochsClosed lo s.dueRecords s t where
  shape : StoreShape t
  first : lo + s.dueRecords.length = max lo (s.plan.firstEpoch s.ref.ntNow) ∨ t.openCount = 0 ∧
    lo + s.dueRecords.length < s.plan.firstEpoch s.ref.ntNow

theorem epochNs_pos {p : Plan} (h : p.inRange) : 0 < p.epochNs := by
  obtain ⟨hl, -⟩ := (planInRange_iff _ _ _).1 h
  exact Nat.mul_pos (by omega) (by decide)

theorem closeDue_closed {lo : Nat} (h : StoreShape s) (hlo : s.eLo = some lo) : DueClosed lo s s.closeDue := by
  have sorted := h.listed.sorted
  have numbers : s.openRecords.map (·.2.number) = List.range' lo s.openRecords.length := by
    rw [length_openRecords]
    exact numbers_openRecords_of_perm (h.window lo hlo).1
  obtain ⟨dueNumbers, notDue⟩ := numbers_of_due s.plan s.ref.ntNow s.openRecords numbers
  have listed : ∀ q ∈ s.dueRecords, assocGet s.records q.1 = some q.2 ∧ q.2.state = .opened := fun q hq =>
    (mem_openRecords sorted q.1 q.2).1 (List.mem_filter.1 hq).1
  have distinct : (s.dueRecords.map (·.1)).Nodup := (List.filter_sublist.map _).nodup (openRecords_keys_nodup sorted)
  obtain ⟨shape, count⟩ := foldl_closeRecord_shape s.dueRecords h hlo listed distinct dueNumbers
  refine ⟨foldl_closeRecord s.dueRecords hlo (fun q hq => (listed q hq).1) distinct dueNumbers, shape, ?_⟩
  have first_iff := firstEpoch_le_iff (epochNs_pos h.plan) s.ref.ntNow
  rcases Nat.lt_or_ge (lo + s.dueRecords.length) (s.plan.firstEpoch s.ref.ntNow) with hlt | hge
  · refine .inr ⟨?_, hlt⟩
    rcases Nat.lt_or_ge s.dueRecords.length s.openRecords.length with hshort | hall
    · exact absurd ((first_iff _).2 (notDue hshort)) (Nat.not_le.2 hlt)
    · rw [length_openRecords] at hall
      change (s.closeDue).openCount + _ = _ at count
      omega
  · refine .inl (Nat.le_antisymm ?_ (Nat.max_le.2 ⟨Nat.le_add_right _ _, hge⟩))
    rcases Nat.eq_zero_or_pos s.dueRecords.length with hnone | hpos
    · rw [hnone]
      exact Nat.le_max_left _ _
    · have last : lo + (s.dueRecords.length - 1) ∈ s.dueRecords.map (·.2.number) := by
        have numbered : s.dueRecords.map (·.2.number) = List.range' lo s.dueRecords.length := dueNumbers
        rw [numbered, List.mem_range'_1]
        omega
      obtain ⟨q, hq, heq⟩ := List.mem_map.1 last
      have due : s.plan.closeTime q.2.number ≤ s.ref.ntNow := of_decide_eq_true (List.mem_filter.1 hq).2
      rw [heq] at due
      have above := mt (first_iff _).1 (Nat.not_lt.2 due)
      omega

/-! ## The skip (R83) -/

theorem StoreShape.skipTo (h : StoreShape s) {lo first : Nat} (hlo : s.eLo = some lo) (hnone : lo < first → s.openCount = 0) :
    StoreShape (s.skipTo first) := by
  rw [State.skipTo, hlo]
  simp only
  split
  next hlt =>
    have raised := h.kept (raise_shape s .skippedEpochs)
    have records : (s.raise .skippedEpochs).records = s.records := by simp
    have eLo : (s.raise .skippedEpochs).eLo = some lo := by simpa using hlo
    have open0 : (s.raise .skippedEpochs).openCount = 0 := by
      rw [State.openCount, State.countRecords, records]
      exact hnone hlt
    have present := raised.present
    rw [eLo] at present
    refine ⟨raised.plan, raised.listed, ?_, fun lo' _ => ⟨?_, open0.trans_le (Nat.zero_le _)⟩, nofun, raised.queued, raised.rising,
      fun lo' hlo' e he => ?_, raised.emitting⟩
    · simpa using present
    · have none : openNumbers (s.raise .skippedEpochs).records = [] :=
        List.eq_nil_of_length_eq_zero ((length_openNumbers _).trans open0)
      change (openNumbers (s.raise .skippedEpochs).records).Perm (List.range' lo' (s.raise .skippedEpochs).openCount)
      rw [none, open0]
      exact .refl _
    · cases hlo'
      exact (raised.below lo eLo e he).trans hlt
  next => exact h

theorem StoreShape.closeEvaluation (h : StoreShape s) : StoreShape s.closeEvaluation := by
  unfold State.closeEvaluation
  split
  · exact h
  next hrun =>
    obtain ⟨lo, hlo⟩ := Option.isSome_iff_exists.1 (h.present.2 hrun)
    have closed := closeDue_closed h hlo
    have eLo : s.closeDue.eLo = some (lo + s.dueRecords.length) := by rw [closed.frame]
    have plan : s.closeDue.plan = s.plan := by rw [closed.frame]
    have ref : s.closeDue.ref = s.ref := by rw [closed.frame]
    have skipped : StoreShape (s.closeDue.skipTo (s.closeDue.plan.firstEpoch s.closeDue.ref.ntNow)) :=
      closed.shape.skipTo eLo fun hlt => by
        rw [plan, ref] at hlt
        rcases closed.first with heq | ⟨hopen, -⟩
        · omega
        · exact hopen
    simp only [State.openWindow]
    split
    next lo' hlo' => exact openFronts_shape lo' 17 skipped hlo'
    next => exact skipped

end Sys2Proof.Machine
end

section
/-! Every command keeps the shape of the store: the Emitter's operations, the placement of a packet, and the directives on the store
state (R55, R77, R80 to R84, R93, R128). -/

namespace Sys2Proof.Machine

variable {i : Instr} {s t u : State}

/-! ## The Emitter -/

theorem SameShape.rfl' : SameShape s s := ⟨.of_eq rfl, rfl, rfl, .rfl, rfl, rfl⟩

theorem countDrop_shape (s : State) : SameShape s s.countDrop :=
  .of_frame (.of_eq (by simp [State.countDrop])) (countDrop_emission s) (by simp [State.countDrop]) (by simp [State.countDrop])

theorem StoreShape.dropHead (h : StoreShape s) : StoreShape s.dropHead := by
  unfold State.dropHead
  split
  next j rest hq => exact (freeEmitted_shape (h.headFreed hq)).kept (countDrop_shape _)
  next => exact h

theorem StoreShape.dropHeads (k : Nat) (h : StoreShape s) : StoreShape (dropHeads k s) := by
  induction k generalizing s with
  | zero => exact h
  | succ k ih => exact ih h.dropHead

theorem dropRecord_withEmitter (s : State) (x : Emitter) (j : Nat) :
    ({ s with emitter := x } : State).dropRecord j = { s.dropRecord j with emitter := x } := by
  unfold State.dropRecord
  cases assocGet s.records j <;> rfl

theorem endStarved_withEmitter (s : State) (x : Emitter) :
    ({ s with emitter := x } : State).endStarved = { s.endStarved with emitter := x } := by
  unfold State.endStarved
  by_cases h : s.store = .starved ∧ s.failureSignal = false ∧ atLeast Config.starvedEnd s.freePages = true
  · rw [if_pos h, if_pos h]
  · rw [if_neg h, if_neg h]

/-- The one front epoch that a record becoming Free opens (R84, R137). -/
theorem openFrontAfterFree_of_room {lo j : Nat} (hlo : s.eLo = some lo) (hfree : freeRecordNo s.records = some j)
    (hroom : s.store ≠ .idle ∧ s.openCount < s.plan.windowDepth) :
    s.openFrontAfterFree = s.openEpoch j (lo + s.openCount) := by
  rw [State.openFrontAfterFree, hlo, hfree]
  exact if_pos hroom

theorem openFrontAfterFree_of_noRoom
    (h : ∀ lo j, s.eLo = some lo → freeRecordNo s.records = some j → ¬ (s.store ≠ .idle ∧ s.openCount < s.plan.windowDepth)) :
    s.openFrontAfterFree = s := by
  unfold State.openFrontAfterFree
  split
  next lo j hlo hfree => exact if_neg (h lo j hlo hfree)
  next => rfl

theorem openFrontAfterFree_withEmitter (s : State) (x : Emitter) :
    ({ s with emitter := x } : State).openFrontAfterFree = { s.openFrontAfterFree with emitter := x } := by
  by_cases h : ∃ lo j, s.eLo = some lo ∧ freeRecordNo s.records = some j ∧ s.store ≠ .idle ∧ s.openCount < s.plan.windowDepth
  · obtain ⟨lo, j, hlo, hfree, hroom⟩ := h
    rw [openFrontAfterFree_of_room hlo hfree hroom]
    exact openFrontAfterFree_of_room (s := { s with emitter := x }) hlo hfree hroom
  · have leaves : ∀ lo j, s.eLo = some lo → freeRecordNo s.records = some j →
        ¬ (s.store ≠ .idle ∧ s.openCount < s.plan.windowDepth) := fun lo j hlo hfree hroom => h ⟨lo, j, hlo, hfree, hroom⟩
    rw [openFrontAfterFree_of_noRoom leaves]
    exact openFrontAfterFree_of_noRoom (s := { s with emitter := x }) leaves

/-- Freeing a record does not look at the Emitter. -/
theorem freeEmitted_withEmitter (s : State) (x : Emitter) (j : Nat) :
    ({ s with emitter := x } : State).freeEmitted j = { s.freeEmitted j with emitter := x } := by
  unfold State.freeEmitted
  rw [dropRecord_withEmitter, endStarved_withEmitter, openFrontAfterFree_withEmitter]

/-- The Emitter's record freed while the Emitter goes to Idle (R137, R139). -/
theorem StoreShape.emissionEnded (h : StoreShape s) {e : Emission} (he : s.emitter.emission = some e) :
    StoreShape { s.freeEmitted e.record with emitter := .idle } :=
  freeEmitted_withEmitter s .idle e.record ▸ freeEmitted_shape (h.emissionFreed he)

theorem StoreShape.withDeferred (h : StoreShape s) (n : Nat) : StoreShape { s with deferredExpiries := n } :=
  h.kept ⟨.of_eq rfl, rfl, rfl, .rfl, rfl, rfl⟩

theorem StoreShape.stallTimerExpiry (h : StoreShape s) : StoreShape s.stallTimerExpiry := by
  have expiry : StoreShape s.stallExpiry := by
    unfold State.stallExpiry
    split
    · exact h.dropHead
    next e he => exact (h.emissionEnded (by rw [he]; rfl)).kept (countDrop_shape _)
    next e fate he =>
      split
      · exact h.dropHead
      · split
        · exact h.withDeferred _
        · have abandoned : SameShape s { s with emitter := .sending e .abandoned } :=
            ⟨.of_eq rfl, rfl, rfl, .rfl, rfl, by rw [he]; rfl⟩
          exact (h.kept abandoned).kept (countDrop_shape _)
  rcases stallTimerExpiry_cases s with heq | ⟨-, heq⟩ <;> rw [heq]
  · exact h
  · exact expiry.kept ⟨.of_eq rfl, rfl, rfl, .rfl, rfl, rfl⟩

theorem freeSegmentPages_emitter (s : State) (j slot : Nat) (c : Fin 4) : (s.freeSegmentPages j slot c).emitter = s.emitter ∧
    (s.freeSegmentPages j slot c).closedQueue = s.closedQueue := by
  unfold State.freeSegmentPages
  split <;> exact ⟨rfl, rfl⟩

theorem freeFragmentPages_emitter (s : State) (e : Emission) : (s.freeFragmentPages e).emitter = s.emitter ∧
    (s.freeFragmentPages e).closedQueue = s.closedQueue := by
  have channels (slot : Nat) (cs : List (Fin 4)) (u : State) :
      (cs.foldl (fun s c => s.freeSegmentPages e.record slot c) u).emitter = u.emitter ∧
        (cs.foldl (fun s c => s.freeSegmentPages e.record slot c) u).closedQueue = u.closedQueue := by
    induction cs generalizing u with
    | nil => exact ⟨rfl, rfl⟩
    | cons c cs ih =>
      obtain ⟨emitter, queue⟩ := freeSegmentPages_emitter u e.record slot c
      exact ⟨(ih _).1.trans emitter, (ih _).2.trans queue⟩
  unfold State.freeFragmentPages
  generalize e.slotsOf = l
  induction l generalizing s with
  | nil => exact ⟨rfl, rfl⟩
  | cons slot l ih =>
    obtain ⟨emitter, queue⟩ := channels slot channels4 s
    exact ⟨(ih _).1.trans emitter, (ih _).2.trans queue⟩

theorem freeFragmentPages_shape (s : State) (e : Emission) : SameShape s (s.freeFragmentPages e) :=
  .of_frame (freeFragmentPages_tags s e) (freeFragmentPages_emission s e) (freeFragmentPages_emitter s e).2
    (freeFragmentPages_emitter s e).1

theorem StoreShape.completeFragment (h : StoreShape s) : StoreShape s.completeFragment := by
  have freed (e : Emission) := h.kept (freeFragmentPages_shape s e)
  have emission (e : Emission) : (s.freeFragmentPages e).emitter = s.emitter := (freeFragmentPages_emitter s e).1
  unfold State.completeFragment
  split
  next e he =>
    have starved := (freed e).kept (endStarved_shape _)
    simp only
    split
    · refine (StoreShape.dropHeads _ (starved.emissionEnded ?_)).withDeferred 0
      simp [emission, he, Emitter.emission]
    · refine starved.kept ⟨.of_eq rfl, rfl, rfl, .rfl, rfl, ?_⟩
      simp [emission, he, Emitter.emission]
  next e fate _ he =>
    refine (StoreShape.dropHeads _ ((freed e).emissionEnded ?_)).withDeferred 0
    simp [emission, he, Emitter.emission]
  next => exact h

/-- Fragment 0 of the head record goes out: the record is Emitting (R129). -/
theorem StoreShape.grantHead (h : StoreShape s) {j : Nat} {rest : List Nat} {r : EpochRecord} {e : Emission}
    (hidle : s.emitter = .idle) (hq : s.closedQueue = j :: rest) (hr : assocGet s.records j = some r) (he : e.record = j)
    (tx : Option TxFrame) : StoreShape { s with
      records := assocPut s.records j { r with state := .emitting }, closedQueue := rest, emitter := .sending e .goesOn
      transmitting := tx } := by
  let r' : EpochRecord := { r with state := .emitting }
  let t : State := { s with
    records := assocPut s.records j r', closedQueue := rest, emitter := .sending e .goesOn, transmitting := tx }
  have without := h.headFreed hq
  have notOpen (x : EpochRecord) (hx : assocGet s.records j = some x) : x.state ≠ .opened := fun ho => by
    obtain ⟨y, hy, hc⟩ := (h.queued j).1 (hq ▸ List.mem_cons_self)
    rw [hx] at hy
    cases hy
    rw [ho] at hc
    cases hc
  have perm : (openNumbers t.records).Perm (openNumbers (assocErase s.records j)) :=
    (openNumbers_perm (assocPut_perm h.listed.sorted j r')).trans (.of_eq (openNumbers_cons_other (by simp [r']) _))
  have count : t.openCount = s.openCount := by
    rw [← length_openNumbers, ← length_openNumbers]
    exact (perm.trans (openNumbers_erase h.listed.sorted notOpen)).length_eq
  have tags (k : Nat) : t.tagOf k = if k = j then some (.emitting, r.number) else s.tagOf k := by
    rw [State.tagOf, assocGet_put]
    split <;> rfl
  have emitting : t.recordIs j .emitting := by
    rw [recordIs_iff, tags, if_pos rfl]
    rfl
  have others (k : Nat) (hk : k ≠ j) (x : RecordState) : t.recordIs k x ↔ s.recordIs k x := by
    rw [recordIs_iff, recordIs_iff, tags, if_neg hk]
  obtain ⟨fresh, -⟩ := List.nodup_cons.1 (hq ▸ h.queue_nodup)
  have epochs : t.queuedEpochs = rest.map s.epochOf := map_epochOf_congr fun k (hk : k ∈ rest) => by
    have hne : k ≠ j := fun heq => fresh (heq ▸ hk)
    rw [tags, if_neg hne]
  have old : s.queuedEpochs = s.epochOf j :: rest.map s.epochOf := by rw [State.queuedEpochs, hq, List.map_cons]
  have rising := old ▸ h.rising
  have none (k : Nat) : ¬ s.recordIs k .emitting := fun hk => by
    obtain ⟨e', he', -⟩ := (h.emitting k).1 hk
    rw [hidle] at he'
    cases he'
  refine ⟨h.plan, h.listed.put (h.listed.sixteen j r (mem_of_assocGet hr)) _, h.present, fun lo hlo => ?_,
    fun hlo => count.trans (h.noWindow hlo), fun k => ?_, ?_, fun lo hlo x hx => ?_, fun k => ?_⟩
  · obtain ⟨numbers, atMost⟩ := h.window lo hlo
    change (openNumbers t.records).Perm (List.range' lo t.openCount) ∧ t.openCount ≤ _
    rw [count]
    exact ⟨(perm.trans (openNumbers_erase h.listed.sorted notOpen)).trans numbers, atMost⟩
  · have queued := h.queued k
    rw [hq, List.mem_cons] at queued
    change k ∈ rest ↔ t.recordIs k .closed
    by_cases hk : k = j
    · rw [hk]
      exact iff_of_false fresh fun hx => nomatch recordIs_unique emitting hx
    · rw [others k hk, ← queued]
      exact ⟨.inr, fun hx => hx.resolve_left hk⟩
  · exact epochs ▸ (List.pairwise_cons.1 rising).2
  · exact h.below lo hlo x (old ▸ List.mem_cons_of_mem _ (epochs ▸ hx))
  · change t.recordIs k .emitting ↔ ∃ e', some e = some e' ∧ e'.record = k
    by_cases hk : k = j
    · rw [hk]
      exact iff_of_true emitting ⟨e, rfl, he⟩
    · rw [others k hk]
      refine iff_of_false (none k) ?_
      rintro ⟨e', heq, rfl⟩
      cases heq
      exact hk he

/-! ## Placement -/

/-- What placing samples can change. -/
def Placement (s t : State) : Prop := ∃ store stations records free memory flags notice, t = { s with
  store := store, stations := stations, records := records, freePages := free, memory := memory, flags := flags
  noticeSlot := notice }

theorem Placement.rfl' : Placement s s := ⟨_, _, _, _, _, _, _, rfl⟩

theorem Placement.comp (h : Placement s t) (k : Placement t u) : Placement s u := by
  obtain ⟨_, _, _, _, _, _, _, rfl⟩ := h
  obtain ⟨_, _, _, _, _, _, _, rfl⟩ := k
  exact ⟨_, _, _, _, _, _, _, rfl⟩

theorem modifyStation_placement (s : State) (slot : Nat) (f : Station → Station) : Placement s (s.modifyStation slot f) := by
  unfold State.modifyStation
  split
  · exact ⟨s.store, _, s.records, s.freePages, s.memory, s.flags, s.noticeSlot, rfl⟩
  · exact .rfl'

theorem markOverlap_placement (s : State) (j : Nat) (p : InHand) : Placement s (s.markOverlap j p) := by
  unfold State.markOverlap State.modifyRecord
  split
  · exact ⟨s.store, s.stations, _, s.freePages, s.memory, s.flags, s.noticeSlot, rfl⟩
  · exact .rfl'

theorem writeSample_placement (s : State) (j k : Nat) (p : InHand) (page : PageNo) (v : Sample) :
    Placement s (s.writeSample j p k page v) := by
  unfold State.writeSample
  split
  · exact ⟨s.store, s.stations, _, s.freePages, _, s.flags, s.noticeSlot, rfl⟩
  · exact .rfl'

theorem takePage_placement (s : State) : Placement s s.takePage := by
  obtain ⟨flags, notice, heq, -⟩ := takePage_only s
  exact ⟨s.store, s.stations, s.records, s.freePages.tail, s.memory, flags, notice, heq⟩

theorem enterStarved_placement (s : State) : Placement s s.enterStarved := by
  obtain ⟨flags, notice, heq, -⟩ := raise_only ({ s with store := .starved } : State) .storeStarved
  exact ⟨.starved, s.stations, s.records, s.freePages, s.memory, flags, notice, heq⟩

theorem placeInRecord_placement (s : State) (j k : Nat) (r : EpochRecord) (p : InHand) (v : Sample) :
    Placement s (s.placeInRecord j r p k v) := by
  unfold State.placeInRecord
  simp only
  split
  · split
    · exact (markOverlap_placement s j p).comp (modifyStation_placement _ _ _)
    · exact writeSample_placement s j k p _ v
  · split
    · exact (markOverlap_placement s j p).comp (modifyStation_placement _ _ _)
    · exact (takePage_placement s).comp (writeSample_placement _ j k p _ v)
  · exact (enterStarved_placement s).comp (modifyStation_placement _ _ _)
  · exact modifyStation_placement s _ _

theorem placeSample_placement (s : State) (p : InHand) (n gs : Nat) (v : Sample) : Placement s (s.placeSample p n gs v) := by
  unfold State.placeSample
  simp only
  split
  · exact modifyStation_placement s _ _
  · split
    · exact modifyStation_placement s _ _
    · split
      · exact modifyStation_placement s _ _
      · exact placeInRecord_placement s _ _ _ p v

theorem placeSamples_placement (p : InHand) (n : Nat) (vs : List Sample) (gs : Nat) (s : State) :
    Placement s (placeSamples p n gs vs s) := by
  induction vs generalizing gs s with
  | nil => exact .rfl'
  | cons v vs ih => exact (placeSample_placement s p n gs v).comp (ih _ _)

theorem StoreShape.handOff (h : StoreShape s) (ht : exec .handOff s = .next t) : StoreShape t := by
  obtain ⟨eLo, idle⟩ := (exec_untouched ht).window rfl
  have plan : t.plan = s.plan := (exec_kept (by simp) ht).plan (by simp)
  rcases handOff_cases ht with rfl | ⟨p, -, ⟨-, rfl⟩ | ⟨-, rfl⟩⟩
  · exact h
  · obtain ⟨_, _, _, _, _, _, _, only⟩ := placeSamples_placement p (s.handN p) p.samples p.globalSlot s
    refine h.kept ⟨(placeSamples_tags p _ _ _ s h.listed).comp (.of_eq rfl), plan, eLo, idle, ?_, ?_⟩
    · have queue : (s.place p).closedQueue = s.closedQueue := by rw [State.place, only]
      exact queue
    · have emitter : (s.place p).emitter = s.emitter := by rw [State.place, only]
      exact congrArg (fun x : Emitter => x.emission.map (·.record)) emitter
  · exact h.kept ⟨.of_eq (by simp), plan, eLo, idle, by simp, by simp⟩

/-! ## Records dropped by their state: STORE-STOP and RESTART (R88, R100, R102) -/

theorem mem_byEpoch {l : List (Nat × EpochRecord)} {q : Nat × EpochRecord} : q ∈ byEpoch l ↔ q ∈ l := (byEpoch_perm l).mem_iff

/-- All that freeing the records of a property does, in increasing epoch number (R88). -/
theorem dropRecords_filter (hs : assocSorted s.records = true) (f : Nat × EpochRecord → Bool) :
    ∃ records, s.dropRecords (s.records.filter f) =
        { s with
          records := records, freePages := s.freePages ++ (byEpoch (s.records.filter f)).flatMap (fun q => q.2.pageList) } ∧
      (∀ j r, assocGet s.records j = some r → f (j, r) = true → assocGet records j = none) ∧
      (∀ j r, assocGet s.records j = some r → f (j, r) = false → assocGet records j = some r) ∧
      ∀ j, assocGet s.records j = none → assocGet records j = none := by
  have mem (j : Nat) (r : EpochRecord) : (j, r) ∈ byEpoch (s.records.filter f) ↔ assocGet s.records j = some r ∧ f (j, r) = true := by
    rw [mem_byEpoch, List.mem_filter]
    exact and_congr_left fun _ => ⟨assocGet_of_mem hs, mem_of_assocGet⟩
  have distinct : ((byEpoch (s.records.filter f)).map (·.1)).Nodup :=
    ((byEpoch_perm _).map _).nodup_iff.2 ((List.filter_sublist.map _).nodup (assocSorted_keys_nodup hs))
  obtain ⟨records, heq, hin, hout⟩ := foldl_dropRecord (byEpoch (s.records.filter f)) (fun q hq => ((mem q.1 q.2).1 hq).1) distinct
  have kept (j : Nat) (hj : ∀ r, assocGet s.records j = some r → f (j, r) = false) : assocGet records j = assocGet s.records j :=
    hout j fun hmem => by
      obtain ⟨⟨k, r⟩, hq, rfl⟩ := List.mem_map.1 hmem
      obtain ⟨hr, hf⟩ := (mem k r).1 hq
      rw [hj r hr] at hf
      cases hf
  refine ⟨records, heq, fun j r hr hf => hin (j, r) ((mem j r).2 ⟨hr, hf⟩), fun j r hr hf => ?_, fun j hj => ?_⟩
  · rw [kept j, hr]
    intro r' hr'
    rw [hr] at hr'
    exact Option.some.inj hr' ▸ hf
  · rw [kept j, hj]
    intro r' hr'
    rw [hj] at hr'
    cases hr'

theorem dropRecord_listed (h : RecordsListed s.records) (j : Nat) : RecordsListed (s.dropRecord j).records := by
  unfold State.dropRecord
  split
  · exact h.erase j
  · exact h

theorem dropRecords_listed (h : RecordsListed s.records) (rs : List (Nat × EpochRecord)) :
    RecordsListed (s.dropRecords rs).records := by
  unfold State.dropRecords
  generalize byEpoch rs = l
  induction l generalizing s with
  | nil => exact h
  | cons q l ih => exact ih (dropRecord_listed h q.1)

/-- The store is Idle and no record is Open. -/
theorem StoreShape.stopped (h : StoreShape s) (hplan : t.plan = s.plan) (hlisted : RecordsListed t.records) (heLo : t.eLo = none)
    (hidle : t.store = .idle) (hopen : ∀ j, ¬ t.recordIs j .opened) (hq : ∀ j, j ∈ t.closedQueue ↔ t.recordIs j .closed)
    (hepochs : t.queuedEpochs.Pairwise (· < ·))
    (hemit : ∀ j, t.recordIs j .emitting ↔ ∃ e, t.emitter.emission = some e ∧ e.record = j) : StoreShape t where
  plan := hplan ▸ h.plan
  listed := hlisted
  present := by simp [heLo, hidle]
  window := fun lo hlo => by simp [heLo] at hlo
  noWindow := fun _ => (openCount_eq_zero_iff t).2 fun j r hr ho => hopen j ⟨r, assocGet_of_mem hlisted.sorted hr, ho⟩
  queued := hq
  rising := hepochs
  below := fun lo hlo => by simp [heLo] at hlo
  emitting := hemit

/-- The records of `s` but those of a property are left in `t`. -/
structure LeftOver (f : Nat → EpochRecord → Prop) (s t : State) : Prop where
  gone : ∀ j r, assocGet s.records j = some r → f j r → assocGet t.records j = none
  kept : ∀ j r, assocGet s.records j = some r → ¬ f j r → assocGet t.records j = some r
  free : ∀ j, assocGet s.records j = none → assocGet t.records j = none

theorem LeftOver.get_iff {f : Nat → EpochRecord → Prop} (h : LeftOver f s t) {j : Nat} {r : EpochRecord} :
    assocGet t.records j = some r ↔ assocGet s.records j = some r ∧ ¬ f j r := by
  cases hold : assocGet s.records j with
  | none => simp [h.free j hold]
  | some r0 =>
    by_cases hf : f j r0
    · rw [h.gone j r0 hold hf]
      refine iff_of_false nofun ?_
      rintro ⟨heq, hnf⟩
      exact hnf (Option.some.inj heq ▸ hf)
    · rw [h.kept j r0 hold hf]
      refine ⟨fun heq => ⟨heq, Option.some.inj heq ▸ hf⟩, fun ⟨heq, _⟩ => heq⟩

theorem LeftOver.recordIs_iff {f : Nat → EpochRecord → Prop} (h : LeftOver f s t) {j : Nat} {x : RecordState} :
    t.recordIs j x ↔ ∃ r, assocGet s.records j = some r ∧ ¬ f j r ∧ r.state = x := by
  simp only [State.recordIs, h.get_iff, and_assoc]

theorem StoreShape.storeStop (h : StoreShape s) : StoreShape (s.dropRecords s.openRecords).becomeIdle.retireAll := by
  obtain ⟨records, hdrop, hopen, hother, hfree⟩ := dropOpenRecords_eq h.listed.sorted
  have listed := dropRecords_listed h.listed s.openRecords
  rw [hdrop] at listed ⊢
  let t : State := ({ s with
    records := records, freePages := s.freePages ++ s.openRecords.flatMap (fun q => q.2.pageList) } : State).becomeIdle.retireAll
  have left : LeftOver (fun _ r => r.state = .opened) s t := ⟨hopen, hother, hfree⟩
  have kept (j : Nat) {x : RecordState} (hx : x ≠ .opened) : t.recordIs j x ↔ s.recordIs j x := by
    rw [left.recordIs_iff]
    exact ⟨fun ⟨r, hr, _, hs⟩ => ⟨r, hr, hs⟩, fun ⟨r, hr, hs⟩ => ⟨r, hr, fun ho => hx (hs.symm.trans ho), hs⟩⟩
  have epochs : t.queuedEpochs = s.queuedEpochs := map_epochOf_congr fun j hj => by
    obtain ⟨r, hr, hc⟩ := (h.queued j).1 hj
    have present : assocGet t.records j = some r := left.get_iff.2 ⟨hr, by simp [hc]⟩
    rw [State.tagOf, State.tagOf, present, hr]
  refine h.stopped (t := t) rfl listed rfl rfl (fun j hj => ?_) (fun j => (h.queued j).trans (kept j (by simp)).symm)
    (epochs ▸ h.rising) fun j => (kept j (by simp)).trans (h.emitting j)
  obtain ⟨r, -, hnot, ho⟩ := left.recordIs_iff.1 hj
  exact hnot ho

/-- The records that RESTART frees at once (R102, R143). -/
def State.RestartFrees (s : State) (j : Nat) (r : EpochRecord) : Prop :=
  r.state = .opened ∨ r.state = .closed ∨ ∃ e, s.emitter = .building e ∧ e.record = j

theorem restartRecords_eq (s : State) : ∃ f : Nat × EpochRecord → Bool, s.restartRecords = s.records.filter f ∧
    ∀ j r, f (j, r) = true ↔ s.RestartFrees j r := by
  refine ⟨_, rfl, fun j r => ?_⟩
  cases he : s.emitter <;> simp [State.RestartFrees, EpochRecord.inState, he, eq_comm (a := j), or_assoc]

theorem dropRestartRecords_eq (hs : assocSorted s.records = true) :
    ∃ records, s.dropRecords s.restartRecords =
        { s with
          records := records, freePages := s.freePages ++ (byEpoch s.restartRecords).flatMap (fun q => q.2.pageList) } ∧
      LeftOver s.RestartFrees s { s with records := records } := by
  obtain ⟨f, heq, hf⟩ := restartRecords_eq s
  obtain ⟨records, hdrop, gone, kept, free⟩ := dropRecords_filter hs f
  refine ⟨records, heq ▸ hdrop, fun j r hr hfreed => gone j r hr ((hf j r).2 hfreed), fun j r hr hnot => kept j r hr ?_, free⟩
  exact eq_false_of_ne_true fun htrue => hnot ((hf j r).1 htrue)

theorem StoreShape.restart (h : StoreShape s) : StoreShape s.restartAll := by
  obtain ⟨records, hdrop, left⟩ := dropRestartRecords_eq h.listed.sorted
  have hrecords : s.restartAll.records = records := by
    rw [State.restartAll, hdrop]
    rfl
  have hplan : s.restartAll.plan = s.plan := by
    rw [State.restartAll, hdrop]
    rfl
  have listed : RecordsListed s.restartAll.records := dropRecords_listed h.listed s.restartRecords
  have after : LeftOver s.RestartFrees s s.restartAll := by
    constructor <;> rw [hrecords]
    · exact left.gone
    · exact left.kept
    · exact left.free
  refine h.stopped hplan listed rfl rfl (fun j hj => ?_) (fun j => ?_) .nil fun j => ?_
  · obtain ⟨r, -, hnot, ho⟩ := after.recordIs_iff.1 hj
    exact hnot (.inl ho)
  · refine iff_of_false (by simp [State.restartAll]) fun hj => ?_
    obtain ⟨r, -, hnot, hc⟩ := after.recordIs_iff.1 hj
    exact hnot (.inr (.inl hc))
  · have emitter : s.restartAll.emitter = restartEmitter s.emitter := rfl
    rw [after.recordIs_iff, emitter]
    constructor
    · rintro ⟨r, hr, hnot, hemit⟩
      obtain ⟨e, he, hj⟩ := (h.emitting j).1 ⟨r, hr, hemit⟩
      cases hs : s.emitter with
      | idle => simp [hs, Emitter.emission] at he
      | building b =>
        simp only [hs, Emitter.emission, Option.some.injEq] at he
        exact absurd (.inr (.inr ⟨b, hs, he ▸ hj⟩)) hnot
      | sending b fate =>
        simp only [hs, Emitter.emission, Option.some.injEq] at he
        exact ⟨b, rfl, he ▸ hj⟩
    · rintro ⟨e, he, hj⟩
      cases hs : s.emitter with
      | idle => simp [hs, restartEmitter, Emitter.emission] at he
      | building b => simp [hs, restartEmitter, Emitter.emission] at he
      | sending b fate =>
        simp only [hs, restartEmitter, Emitter.emission, Option.some.injEq] at he
        obtain ⟨r, hr, hemit⟩ := (h.emitting j).2 ⟨e, by simp [hs, Emitter.emission, he], hj⟩
        exact ⟨r, hr, by simp [State.RestartFrees, hemit, hs], hemit⟩

theorem StoreShape.storeStart (h : StoreShape s) (hidle : s.store = .idle) :
    StoreShape (openFronts s.startEpoch 17 { s with store := .ready, eLo := some s.startEpoch }) := by
  have noWindow : s.eLo = none := by simpa [hidle] using h.present
  have noneOpen : s.openCount = 0 := h.noWindow noWindow
  have none : openNumbers s.records = [] := List.eq_nil_of_length_eq_zero ((length_openNumbers s).trans noneOpen)
  obtain ⟨-, above⟩ := (startEpoch_le_iff h.plan _).1 (Nat.le_refl s.startEpoch)
  let t : State := { s with store := .ready, eLo := some s.startEpoch }
  have started : StoreShape t := by
    refine ⟨h.plan, h.listed, by simp [t], fun lo hlo => ?_, nofun, h.queued, h.rising, fun lo hlo e he => ?_, h.emitting⟩
    · have count : t.openCount = 0 := noneOpen
      have numbers : openNumbers t.records = [] := none
      rw [count, numbers]
      exact ⟨.refl _, Nat.zero_le _⟩
    · cases hlo
      obtain ⟨j, hj, rfl⟩ := List.mem_map.1 he
      obtain ⟨r, hr, -⟩ := (h.queued j).1 hj
      have epoch : t.epochOf j = r.number := by
        have present : assocGet t.records j = some r := hr
        rw [State.epochOf, present]
        rfl
      rw [epoch]
      exact above j r (mem_of_assocGet hr)
  exact openFronts_shape s.startEpoch 17 started rfl

end Sys2Proof.Machine
end

section
/-! Every command keeps the store's invariant (R55, R77, R80 to R84, R93, R128). -/

namespace Sys2Proof.Machine

variable {i : Instr} {s t u : State}

/-! ## The shape -/

theorem trunkExpiry_shape (s : State) (p : Port) : SameShape s (s.trunkExpiry p) := by
  have untouched := trunkExpiry_untouched (i := .lossOfSignalIndication p) rfl s p
  obtain ⟨records, -, queue, emitter⟩ := untouched.records rfl
  obtain ⟨eLo, idle⟩ := untouched.window rfl
  exact ⟨.of_eq records, (trunkExpiry_kept (i := .identify) s p).plan nofun, eLo, idle, queue, by rw [emitter]⟩

theorem chainLinkExpiry_shape (s : State) : SameShape s s.chainLinkExpiry := by
  have untouched := chainLinkExpiry_untouched (i := .chainLossOfSignal) rfl s
  obtain ⟨records, -, queue, emitter⟩ := untouched.records rfl
  obtain ⟨eLo, idle⟩ := untouched.window rfl
  exact ⟨.of_eq records, (chainLinkExpiry_kept (i := .identify) s).plan nofun, eLo, idle, queue, by rw [emitter]⟩

theorem StoreShape.withLinks (h : StoreShape s) (loss stall : Nat) : StoreShape (s.withLinks loss stall) := by
  have set : SameShape s { s with linkLossTime := loss, stallLimit := stall } := ⟨.of_eq rfl, rfl, rfl, .rfl, rfl, rfl⟩
  exact (h.kept (((set.comp (trunkExpiry_shape _ .a)).comp (trunkExpiry_shape _ .b)).comp (chainLinkExpiry_shape _))).stallTimerExpiry

theorem emptyOpen_queue (s : State) (slot : Nat) (cs : List (Fin 4)) (n : Nat) :
    (s.emptyOpen slot cs n).closedQueue = s.closedQueue ∧ (s.emptyOpen slot cs n).emitter = s.emitter := by
  have segment (u : State) (j : Nat) (c : Fin 4) : (u.emptySegment j slot c n).closedQueue = u.closedQueue ∧
      (u.emptySegment j slot c n).emitter = u.emitter := by
    unfold State.emptySegment
    split <;> exact ⟨rfl, rfl⟩
  have segments (u : State) (j : Nat) : (u.emptySegments j slot cs n).closedQueue = u.closedQueue ∧
      (u.emptySegments j slot cs n).emitter = u.emitter := by
    unfold State.emptySegments
    induction cs generalizing u with
    | nil => exact ⟨rfl, rfl⟩
    | cons c cs ih =>
      obtain ⟨queue, emitter⟩ := segment u j c
      obtain ⟨queue', emitter'⟩ := ih (u.emptySegment j slot c n)
      exact ⟨queue'.trans queue, emitter'.trans emitter⟩
  have records (l : List (Nat × EpochRecord)) (u : State) :
      (l.foldl (fun s p => s.emptySegments p.1 slot cs n) u).closedQueue = u.closedQueue ∧
        (l.foldl (fun s p => s.emptySegments p.1 slot cs n) u).emitter = u.emitter := by
    induction l generalizing u with
    | nil => exact ⟨rfl, rfl⟩
    | cons p l ih =>
      obtain ⟨queue, emitter⟩ := segments u p.1
      obtain ⟨queue', emitter'⟩ := ih (u.emptySegments p.1 slot cs n)
      exact ⟨queue'.trans queue, emitter'.trans emitter⟩
  obtain ⟨queue, emitter⟩ := records s.openRecords s
  exact ⟨by simpa [State.emptyOpen] using queue, by simpa [State.emptyOpen] using emitter⟩

theorem emptyOpen_shape (s : State) (slot : Nat) (cs : List (Fin 4)) (n : Nat) : SameShape s (s.emptyOpen slot cs n) :=
  .of_frame (emptyOpen_tags s slot cs n) (emptyOpen_emission s slot cs n) (emptyOpen_queue s slot cs n).1
    (emptyOpen_queue s slot cs n).2

theorem unmap_shape (s : State) (slot : Nat) : SameShape s (s.unmap slot) := by
  have removed : SameShape s { s with map := mapRemove slot s.map, stations := assocErase s.stations slot } :=
    ⟨.of_eq rfl, rfl, rfl, .rfl, rfl, rfl⟩
  by_cases hidle : s.store = .idle
  · exact unmap_of_idle hidle slot ▸ removed
  · exact unmap_of_running hidle slot ▸ removed.comp (emptyOpen_shape _ _ _ _)

theorem setChannel_shape (s : State) (slot : Nat) (st : Station) (c : Fin 4) (rate : Nat) (word : SampleWord) (order : SampleOrder) :
    SameShape s (s.setChannel slot st c rate word order) := by
  have put (b : Station) : SameShape s (s.putStation slot b) := ⟨.of_eq rfl, rfl, rfl, .rfl, rfl, rfl⟩
  unfold State.setChannel
  simp only
  split
  · exact put _
  · exact (put _).comp (emptyOpen_shape _ _ [c] _)

theorem StoreShape.setPlanRule (h : StoreShape s) (ps : List Byte) : StoreShape (setPlanRule s ps).state := by
  rcases setPlanRule_state s ps with heq | ⟨plan, hrange, -, -, hidle, heq⟩ <;> rw [heq]
  · exact h
  · have noWindow : s.eLo = none := by simpa [hidle] using h.present
    refine ⟨hrange, h.listed, h.present, fun lo hlo => ?_, h.noWindow, h.queued, h.rising, h.below, h.emitting⟩
    rw [show s.eLo = some lo from hlo] at noWindow
    cases noWindow

theorem StoreShape.rule (h : StoreShape s) {d : Directive} (hd : directiveOf i = some d) (ps : List Byte) :
    StoreShape (d.rule s ps).state := by
  by_cases hplan : i = .setPlan
  · subst hplan
    cases hd
    exact h.setPlanRule ps
  by_cases hi : setsRecords i = false ∧ setsWindow i = false
  · obtain ⟨hr, hw⟩ := hi
    have untouched := rule_untouched hd s ps
    obtain ⟨records, -, queue, emitter⟩ := untouched.records hr
    obtain ⟨eLo, idle⟩ := untouched.window hw
    exact h.kept ⟨.of_eq records, (rule_kept hd s ps).plan hplan, eLo, idle, queue, by rw [emitter]⟩
  cases i <;> simp only [setsRecords, setsWindow, and_self, not_true_eq_false] at hi
  all_goals simp only [directiveOf, Option.some.injEq, reduceCtorEq] at hd
  all_goals subst hd; dsimp only
  case setLinks =>
    rcases setLinksRule_state s ps with heq | ⟨loss, stall, heq⟩ <;> rw [heq]
    · exact h
    · exact h.withLinks loss stall
  case unmapStation =>
    rcases unmapStationRule_state s ps with heq | ⟨slot, _, -, -, heq⟩ <;> rw [heq]
    · exact h
    · exact h.kept (unmap_shape s slot)
  case setChannel =>
    rcases setChannelRule_state s ps with heq | ⟨slot, st, c, rate, word, order, -, -, heq⟩ <;> rw [heq]
    · exact h
    · exact h.kept (setChannel_shape s slot st c rate word order)
  case storeStart =>
    rcases storeStartRule_state s ps with heq | ⟨hidle, heq⟩ <;> rw [heq]
    · exact h
    · exact h.storeStart hidle
  case storeStop =>
    rcases storeStopRule_state s ps with heq | ⟨-, heq⟩ <;> rw [heq]
    · exact h
    · exact h.storeStop
  case restart => exact h.restart

theorem withhold_shape (s : State) : SameShape s s.withhold :=
  ⟨.of_eq (by simp), by simp, by simp, withhold_idle s, by simp, by simp⟩

theorem setRef_shape (s : State) (r : RefClock) : SameShape s (s.setRef r) :=
  ⟨.of_eq (by simp), by simp, by simp, by simp, by simp, by simp⟩

theorem StoreShape.grant (h : StoreShape s) (src : TxSource) : StoreShape (s.grantSource src) := by
  rcases grantSource_cases s src with ⟨_, _, _, heq⟩ | heq <;> rw [heq]
  · exact h.kept ⟨.of_eq rfl, rfl, rfl, .rfl, rfl, rfl⟩
  · have own : StoreShape s.grantOwn := by
      rcases grantOwn_cases s with heq | ⟨j, rest, r, e, tx, hidle, hq, hr, he, heq⟩ | ⟨e, tx, hb, heq⟩ <;> rw [heq]
      · exact h
      · exact h.grantHead hidle hq hr he tx
      · exact h.kept ⟨.of_eq rfl, rfl, rfl, .rfl, rfl, by rw [hb]; rfl⟩
    exact own.kept ⟨.of_eq rfl, rfl, rfl, .rfl, rfl, rfl⟩

theorem StoreShape.exec (h : StoreShape s) (ht : exec i s = .next t) : StoreShape t := by
  refine exec_keeps (I := StoreShape) (fun _ _ _ hu => hu.kept ⟨.of_eq rfl, rfl, rfl, .rfl, rfl, rfl⟩)
    (fun hu => hu.kept (withhold_shape _)) (fun i d hd u ps _ hu => hu.rule hd ps) (fun i hd u v hv hu => ?_) i ht h
  by_cases hoff : i = .handOff
  · exact hu.handOff (hoff ▸ hv)
  by_cases hpower : ∃ straps, i = .powerOnReset straps
  · obtain ⟨straps, rfl⟩ := hpower
    exact ((storeInv_iff _).1 (Host.Outcome.next.inj hv ▸ storeInv_poweredOn u straps)).1
  have notReset (straps) : i ≠ .powerOnReset straps := fun heq => hpower ⟨straps, heq⟩
  by_cases hi : setsRecords i = false
  · have hw : setsWindow i = false := by cases i <;> simp_all [setsWindow, setsRecords]
    have plan : v.plan = u.plan := (exec_kept notReset hv).plan (by rintro rfl; cases hd)
    obtain ⟨records, -, queue, emitter⟩ := (exec_untouched hv).records hi
    obtain ⟨eLo, idle⟩ := (exec_untouched hv).window hw
    exact hu.kept ⟨.of_eq records, plan, eLo, idle, queue, by rw [emitter]⟩
  cases i <;> simp only [setsRecords, not_true_eq_false, directiveOf, reduceCtorEq] at hi hd
  case powerOnReset straps => exact absurd rfl (notReset straps)
  case handOff => exact absurd rfl hoff
  case timeMark mark =>
    rcases timeMark_cases hv with rfl | ⟨-, rfl⟩
    · exact ((hu.kept (withhold_shape u)).kept (setRef_shape _ _)).closeEvaluation
    · exact hu.kept (setRef_shape _ _)
  case closeTimeReached =>
    rcases closeTimeReached_cases hv with rfl | rfl
    · exact hu
    · exact (hu.kept (withhold_shape u)).closeEvaluation
  case stallTimerExpiry => exact Host.Outcome.next.inj hv ▸ hu.stallTimerExpiry
  case grant =>
    rcases grant_cases hv with rfl | ⟨src, rfl⟩
    · exact hu
    · exact hu.grant src
  case fragmentCompletion =>
    rcases fragmentCompletion_cases hv with rfl | rfl
    · exact hu
    · exact (hu.kept (t := { u with transmitting := none }) ⟨.of_eq rfl, rfl, rfl, .rfl, rfl, rfl⟩).completeFragment

/-! ## The failure signal (R55) -/

/-- The store is Ready or Starved. -/
def State.Running (s : State) : Prop := s.store = .ready ∨ s.store = .starved

/-- A failure signal of `t` stood in `s`, and what it needs is as it was. -/
structure SignalKept (s t : State) : Prop where
  signal  : t.failureSignal = true → s.failureSignal = true
  ref     : s.ref.state = .failed → t.ref.state = .failed
  plan    : t.plan = s.plan
  running : s.Running → t.Running

theorem SignalOk.of_settled (h : t.failureSignal = false) : SignalOk t := fun htrue => by
  rw [h] at htrue
  cases htrue

theorem SignalOk.kept (h : SignalOk s) (k : SignalKept s t) : SignalOk t := fun hsig => by
  obtain ⟨ref, action, running⟩ := h (k.signal hsig)
  exact ⟨k.ref ref, k.plan ▸ action, k.running running⟩

theorem SignalKept.of_eqs (hsig : t.failureSignal = s.failureSignal) (href : t.ref = s.ref) (hplan : t.plan = s.plan)
    (hstore : t.store = s.store) : SignalKept s t :=
  ⟨fun h => hsig ▸ h, fun h => href ▸ h, hplan, fun h => by rwa [State.Running, hstore]⟩

theorem SignalKept.comp (h : SignalKept s t) (k : SignalKept t u) : SignalKept s u :=
  ⟨fun x => h.signal (k.signal x), fun x => k.ref (h.ref x), k.plan.trans h.plan, fun x => k.running (h.running x)⟩

theorem SignalKept.rfl' : SignalKept s s := .of_eqs rfl rfl rfl rfl

theorem SignalKept.of_frame (h : EmissionFrame s t) (hrun : s.Running → t.Running) : SignalKept s t :=
  ⟨fun x => h.failureSignal ▸ x, fun x => h.ref ▸ x, h.plan, hrun⟩

theorem dropRecord_signal (s : State) (j : Nat) : SignalKept s (s.dropRecord j) := by
  unfold State.dropRecord
  split <;> exact .of_eqs rfl rfl rfl rfl

theorem endStarved_signal (s : State) : SignalKept s s.endStarved := by
  refine .of_frame (endStarved_emission s) fun h => ?_
  unfold State.endStarved
  split
  · exact .inl rfl
  · exact h

theorem openFrontAfterFree_signal (s : State) : SignalKept s s.openFrontAfterFree := by
  unfold State.openFrontAfterFree
  split
  · split <;> exact .of_eqs rfl rfl rfl rfl
  · exact .rfl'

theorem freeEmitted_signal (s : State) (j : Nat) : SignalKept s (s.freeEmitted j) :=
  ((dropRecord_signal s j).comp (endStarved_signal _)).comp (openFrontAfterFree_signal _)

theorem countDrop_signal (s : State) : SignalKept s s.countDrop :=
  .of_eqs (by simp [State.countDrop]) (by simp [State.countDrop]) (by simp [State.countDrop]) (by simp [State.countDrop])

theorem dropHead_signal (s : State) : SignalKept s s.dropHead := by
  unfold State.dropHead
  split
  next j rest _ =>
    have queue : SignalKept s { s with closedQueue := rest } := .of_eqs rfl rfl rfl rfl
    exact (queue.comp (freeEmitted_signal _ j)).comp (countDrop_signal _)
  next => exact .rfl'

theorem dropHeads_signal (k : Nat) (s : State) : SignalKept s (dropHeads k s) := by
  induction k generalizing s with
  | zero => exact .rfl'
  | succ k ih => exact (dropHead_signal s).comp (ih _)

theorem SignalKept.withEmitter (h : SignalKept s t) (e : Emitter) : SignalKept s { t with emitter := e } :=
  h.comp (.of_eqs rfl rfl rfl rfl)

theorem SignalKept.withDeferred (h : SignalKept s t) (n : Nat) : SignalKept s { t with deferredExpiries := n } :=
  h.comp (.of_eqs rfl rfl rfl rfl)

theorem stallTimerExpiry_signal (s : State) : SignalKept s s.stallTimerExpiry := by
  have expiry : SignalKept s s.stallExpiry := by
    unfold State.stallExpiry
    split
    · exact dropHead_signal s
    · exact ((freeEmitted_signal s _).withEmitter _).comp (countDrop_signal _)
    · split
      · exact dropHead_signal s
      · split
        · exact SignalKept.rfl'.withDeferred _
        · exact (SignalKept.rfl'.withEmitter _).comp (countDrop_signal _)
  rcases stallTimerExpiry_cases s with heq | ⟨-, heq⟩ <;> rw [heq]
  · exact .rfl'
  · exact expiry.comp (.of_eqs rfl rfl rfl rfl)

theorem freeFragmentPages_store (s : State) (e : Emission) : (s.freeFragmentPages e).store = s.store := by
  have segment (u : State) (slot : Nat) (c : Fin 4) : (u.freeSegmentPages e.record slot c).store = u.store := by
    unfold State.freeSegmentPages
    split <;> rfl
  have channels (slot : Nat) (cs : List (Fin 4)) (u : State) :
      (cs.foldl (fun s c => s.freeSegmentPages e.record slot c) u).store = u.store := by
    induction cs generalizing u with
    | nil => rfl
    | cons c cs ih => exact (ih _).trans (segment u slot c)
  unfold State.freeFragmentPages
  generalize e.slotsOf = l
  induction l generalizing s with
  | nil => rfl
  | cons slot l ih => exact (ih _).trans (channels slot channels4 s)

theorem freeFragmentPages_signal (s : State) (e : Emission) : SignalKept s (s.freeFragmentPages e) :=
  .of_frame (freeFragmentPages_emission s e) fun h => by rwa [State.Running, freeFragmentPages_store]

theorem completeFragment_signal (s : State) : SignalKept s s.completeFragment := by
  unfold State.completeFragment
  split
  next e _ =>
    have freed := (freeFragmentPages_signal s e).comp (endStarved_signal _)
    simp only
    split
    · exact (((freed.comp (freeEmitted_signal _ _)).withEmitter _).comp (dropHeads_signal _ _)).withDeferred _
    · exact freed.withEmitter _
  next e _ _ _ =>
    have freed := freeFragmentPages_signal s e
    exact (((freed.comp (freeEmitted_signal _ _)).withEmitter _).comp (dropHeads_signal _ _)).withDeferred _
  next => exact .rfl'

/-! ### Placement -/

theorem placeSample_running (s : State) (p : InHand) (n gs : Nat) (v : Sample) (h : s.Running) :
    (s.placeSample p n gs v).Running := by
  have written (u : State) (hu : u.store = s.store) (j k : Nat) (page : PageNo) : (u.writeSample j p k page v).Running := by
    unfold State.writeSample State.Running
    split <;> exact hu ▸ h
  have overlap (j : Nat) (f : Station → Station) : ((s.markOverlap j p).modifyStation p.slot f).Running := by
    unfold State.markOverlap State.modifyRecord
    split <;> simpa [State.Running] using h
  have counted (f : Station → Station) : (s.modifyStation p.slot f).Running := by simpa [State.Running] using h
  unfold State.placeSample State.placeInRecord
  simp only
  split
  · exact counted _
  · split
    · exact counted _
    · split
      · exact counted _
      · split
        · split
          · exact overlap _ _
          · exact written s rfl _ _ _
        · split
          · exact overlap _ _
          · exact written s.takePage (by obtain ⟨_, _, heq, -⟩ := takePage_only s; rw [heq]) _ _ _
        · exact .inr (by simp [State.enterStarved])
        · exact counted _

theorem placeSamples_running (p : InHand) (n : Nat) (vs : List Sample) (gs : Nat) (s : State) (h : s.Running) :
    (placeSamples p n gs vs s).Running := by
  induction vs generalizing gs s with
  | nil => exact h
  | cons v vs ih => exact ih _ _ (placeSample_running s p n gs v h)

/-! ### The commands -/

/-- A mark that does not step leaves Failed as it is (R54). -/
theorem mark_failed {r : RefClock} {mark : Mark} (hr : r.state = .failed) (h : (r.mark mark).2 = false) :
    (r.mark mark).1 = r := by
  cases mark with
  | valid m => simp [RefClock.mark, hr] at h
  | bare => simp [RefClock.mark, hr]

theorem SignalOk.setRef (h : SignalOk s) {r : RefClock} (hr : s.ref.state = .failed → r.state = .failed) : SignalOk (s.setRef r) :=
  h.kept ⟨fun x => by simpa using x, fun x => by simpa using hr x, by simp, fun x => by simpa [State.Running] using x⟩

/-- The signal of the holdover timer's expiry comes with the state Failed (R53, R55). -/
theorem SignalOk.holdoverExpiry (h : SignalOk s) : SignalOk s.holdoverExpiry := by
  rcases holdoverExpiry_cases s with heq | ⟨hhold, heq⟩ <;> rw [heq]
  · exact h
  · have notYet : s.failureSignal = false := by
      cases hs : s.failureSignal with
      | false => rfl
      | true =>
        obtain ⟨hfailed, -⟩ := h hs
        rw [hhold] at hfailed
        cases hfailed
    rcases signalFailure_cases ((s.setRef { s.ref with state := .failed, holdoverTimer := none }).raise .refFailed) with
      heq | ⟨action, running, heq⟩ <;> rw [heq]
    · exact .of_settled (by simpa using notYet)
    · exact fun _ => ⟨by simp, action, running⟩

theorem trunkExpiry_signal (s : State) (p : Port) : SignalKept s (s.trunkExpiry p) := by
  unfold State.trunkExpiry
  split
  · by_cases h : (s.trunk p).link = .up
    · obtain ⟨_, _, _, heq⟩ := portDown_of_up h
      exact heq ▸ .of_eqs (by simp) (by simp) (by simp) (by simp)
    · rw [State.portDown, if_neg h]
      exact .rfl'
  · exact .rfl'

theorem portDown_signal (s : State) (p : Port) : SignalKept s (s.portDown p) := by
  by_cases h : (s.trunk p).link = .up
  · obtain ⟨_, _, _, heq⟩ := portDown_of_up h
    exact heq ▸ .of_eqs (by simp) (by simp) (by simp) (by simp)
  · rw [State.portDown, if_neg h]
    exact .rfl'

theorem chainLinkExpiry_signal (s : State) : SignalKept s s.chainLinkExpiry := by
  unfold State.chainLinkExpiry
  split
  · exact .of_eqs rfl rfl rfl rfl
  · exact .rfl'

theorem emptyOpen_failureSignal (s : State) (slot : Nat) (cs : List (Fin 4)) (n : Nat) :
    (s.emptyOpen slot cs n).failureSignal = s.failureSignal := (emptyOpen_emission s slot cs n).failureSignal

/-- The directives' own rules but SET-REFERENCE leave the signal as it is. -/
theorem rule_failureSignal {d : Directive} (hd : directiveOf i = some d) (hi : i ≠ .setReference) (s : State) (ps : List Byte)
    (h : (d.rule s ps).state.failureSignal = true) : s.failureSignal = true := by
  cases i <;> simp only [directiveOf, Option.some.injEq, reduceCtorEq, ne_eq, not_true_eq_false] at hd hi <;> subst hd <;>
    dsimp only at h
  case identify | readStore | readFlags | clearFlags | setNoticeMask => exact h
  case readStation => rwa [readStationRule_state] at h
  case setPlan => rcases setPlanRule_state s ps with heq | ⟨_, -, -, -, -, heq⟩ <;> rwa [heq] at h
  case setLinks =>
    rcases setLinksRule_state s ps with heq | ⟨loss, stall, heq⟩ <;> rw [heq] at h
    · exact h
    · have set : SignalKept s { s with linkLossTime := loss, stallLimit := stall } := .of_eqs rfl rfl rfl rfl
      exact ((((set.comp (trunkExpiry_signal _ .a)).comp (trunkExpiry_signal _ .b)).comp (chainLinkExpiry_signal _)).comp
        (stallTimerExpiry_signal _)).signal h
  case mapStation => rcases mapStationRule_state s ps with heq | ⟨_, _, _, -, -, -, -, heq⟩ <;> rw [heq] at h <;> exact h
  case unmapStation =>
    rcases unmapStationRule_state s ps with heq | ⟨slot, _, -, -, heq⟩ <;> rw [heq] at h
    · exact h
    · by_cases hidle : s.store = .idle
      · rwa [unmap_of_idle hidle] at h
      · rwa [unmap_of_running hidle, emptyOpen_failureSignal] at h
  case setChannel =>
    rcases setChannelRule_state s ps with heq | ⟨slot, st, c, rate, word, order, -, -, heq⟩ <;> rw [heq] at h
    · exact h
    · unfold State.setChannel at h
      simp only at h
      split at h
      · exact h
      · rwa [emptyChannel_eq_emptyOpen, emptyOpen_failureSignal] at h
  case stageCorrection => rcases stageCorrectionRule_state s ps with heq | ⟨_, _, -, -, heq⟩ <;> rw [heq] at h <;> exact h
  case commitCorrection => rcases commitCorrectionRule_state s ps with heq | ⟨_, _, _, _, -, -, -, heq⟩ <;> rw [heq] at h <;> exact h
  case discardStaged => rcases discardStagedRule_state s ps with heq | ⟨_, _, -, heq⟩ <;> rw [heq] at h <;> exact h
  case quarantine => rcases quarantineRule_state s ps with heq | ⟨_, _, -, heq⟩ <;> rw [heq] at h <;> exact h
  case unquarantine => rcases unquarantineRule_state s ps with heq | ⟨_, _, -, heq⟩ <;> rw [heq] at h <;> exact h
  case readCounters =>
    rcases readCountersRule_state s ps with heq | ⟨_, heq⟩ | heq | ⟨_, _, -, heq⟩ | heq <;> rw [heq] at h
    · exact h
    · simpa using h
    · exact h
    · exact h
    · exact h
  case storeStart =>
    rcases storeStartRule_state s ps with heq | ⟨-, heq⟩ <;> rw [heq] at h
    · exact h
    · rwa [(openFronts_emission _ _ _).failureSignal] at h
  case storeStop =>
    rcases storeStopRule_state s ps with heq | ⟨-, heq⟩ <;> rw [heq] at h
    · exact h
    · exact (dropRecords_emission s s.openRecords).failureSignal ▸ h
  case storeSuspend => rcases storeSuspendRule_state s ps with heq | ⟨-, heq⟩ <;> rw [heq] at h <;> exact h
  case storeResume =>
    rcases storeResumeRule_state s ps with heq | ⟨-, heq | heq⟩ <;> rw [heq] at h
    · exact h
    · exact h
    · simpa [State.enterStarved] using h
  case restart => exact (dropRecords_emission s s.restartRecords).failureSignal ▸ h

theorem SignalOk.setReferenceRule (hf : s.failureSignal = false) (ps : List Byte) : SignalOk (setReferenceRule s ps).state := by
  rcases setReferenceRule_state s ps with heq | ⟨wl, limit, -, heq⟩ <;> rw [heq]
  · exact .of_settled hf
  · exact SignalOk.holdoverExpiry (.of_settled hf)

/-- The commands that deal with the clock, the store or the Emitter. -/
theorem exec_signal_of_quiet (hd : directiveOf i = none) (hr : setsRecords i = false) (hc : setsClock i = false)
    (hw : i ≠ .withholdSuspension) (ht : exec i s = .next t) : SignalKept s t := by
  cases i <;> simp only [directiveOf, setsRecords, setsClock, ne_eq, reduceCtorEq, not_true_eq_false] at hd hr hc hw
  case packetArrival => exact Host.Outcome.next.inj ht ▸ .of_eqs (by simp) (by simp) (by simp) (by simp)
  case lossOfSignalIndication => exact Host.Outcome.next.inj ht ▸ portDown_signal s _
  case linkLossTimerExpiry => exact Host.Outcome.next.inj ht ▸ trunkExpiry_signal s _
  case arbiterTake =>
    rcases arbiterTake_cases ht with rfl | ⟨p, bs, rest, -, -, rfl⟩
    · exact .rfl'
    · have taken : SignalKept s (s.take p) := .of_eqs (by simp [State.take]) (by simp [State.take]) (by simp [State.take])
        (by simp [State.take])
      refine taken.comp ?_
      rcases handlePacket_cases (s.take p) p bs with heq | heq | ⟨slot, a, b, -, -, heq | ⟨q, -, -, heq⟩⟩ <;> rw [heq]
      · exact .of_eqs (by simp) (by simp) (by simp) (by simp)
      · exact .rfl'
      · exact .of_eqs rfl rfl rfl rfl
      · exact .of_eqs rfl rfl rfl rfl
  case silenceTimerExpiry =>
    rcases silenceTimerExpiry_cases ht with rfl | ⟨st, -, rfl⟩
    · exact .rfl'
    · exact .of_eqs (by simp) (by simp) (by simp) (by simp)
  case directivePacketArrival bs =>
    rcases directivePacketArrival_cases ht with rfl | rfl | rfl
    · exact .of_eqs rfl rfl rfl rfl
    · exact .of_eqs rfl rfl rfl rfl
    · rcases offerInbound_cases { s with chain := s.routeForward bs } bs with ⟨-, heq⟩ | heq <;> rw [heq]
      · exact .of_eqs rfl rfl rfl rfl
      · exact .of_eqs (by simp) (by simp) (by simp) (by simp)
  case forwardComplete => rcases forwardComplete_cases ht with rfl | ⟨_, rfl⟩ <;> exact .of_eqs rfl rfl rfl rfl
  case hold => rcases hold_cases ht with rfl | rfl <;> exact .of_eqs rfl rfl rfl rfl
  case release => rcases release_cases ht with rfl | rfl <;> exact .of_eqs rfl rfl rfl rfl
  case frameArrival | chainLossOfSignal => exact Host.Outcome.next.inj ht ▸ .of_eqs rfl rfl rfl rfl
  case chainLinkLossTimerExpiry => exact Host.Outcome.next.inj ht ▸ chainLinkExpiry_signal s
  case answerCompletion => rcases answerCompletion_cases ht with rfl | rfl <;> exact .of_eqs rfl rfl rfl rfl
  case passThroughCompletion => rcases passThroughCompletion_cases ht with rfl | ⟨_, rfl⟩ <;> exact .of_eqs rfl rfl rfl rfl
  case noticeCompletion => rcases noticeCompletion_cases ht with rfl | rfl <;> exact .of_eqs rfl rfl rfl rfl
  case beginPacket =>
    rcases beginPacket_cases ht with rfl | ⟨-, rfl | ⟨-, ⟨_, rfl⟩ | ⟨_, rfl⟩ | ⟨_, -, rfl⟩⟩⟩ <;> exact .of_eqs rfl rfl rfl rfl
  case unknown =>
    rcases unknown_cases ht with rfl | ⟨p, e, rest, -, -, rfl⟩
    · exact .rfl'
    · obtain ⟨_, _, _, heq⟩ := finishEntry_only s p e rest .unknown []
      exact heq ▸ .of_eqs rfl rfl rfl rfl

theorem closeEvaluation_failureSignal (s : State) : s.closeEvaluation.failureSignal = s.failureSignal := by
  obtain ⟨_, _, _, _, _, _, _, heq⟩ := closeEvaluation_windowOnly s
  rw [heq]

theorem SignalOk.exec (h : SignalOk s) (ht : exec i s = .next t) : SignalOk t := by
  refine exec_keeps (I := SignalOk) (fun _ _ _ hu => hu.kept (.of_eqs rfl rfl rfl rfl)) (fun _ => .of_settled (by simp))
    (fun i d hd u ps hf _ => ?_) (fun i hd u v hv hu => ?_) i ht h
  · by_cases href : i = .setReference
    · subst href
      cases hd
      exact SignalOk.setReferenceRule hf ps
    · refine .of_settled (eq_false_of_ne_true fun hs => ?_)
      rw [rule_failureSignal hd href u ps hs] at hf
      cases hf
  by_cases hquiet : setsRecords i = false ∧ setsClock i = false ∧ i ≠ .withholdSuspension
  · obtain ⟨hr, hc, hw⟩ := hquiet
    exact hu.kept (exec_signal_of_quiet hd hr hc hw hv)
  cases i <;> simp only [setsRecords, setsClock, ne_eq, reduceCtorEq, not_false_eq_true, and_self, not_true_eq_false, directiveOf]
    at hquiet hd
  case powerOnReset straps => exact ((storeInv_iff _).1 (Host.Outcome.next.inj hv ▸ storeInv_poweredOn u straps)).2
  case handOff =>
    rcases handOff_cases hv with rfl | ⟨p, -, ⟨hrun, rfl⟩ | ⟨-, rfl⟩⟩
    · exact hu
    · obtain ⟨_, _, _, _, _, _, _, only⟩ := placeSamples_placement p (u.handN p) p.samples p.globalSlot u
      have running : (u.place p).Running := placeSamples_running p _ _ _ u hrun
      have signal : (u.place p).failureSignal = u.failureSignal := by rw [State.place, only]
      have ref : (u.place p).ref = u.ref := by rw [State.place, only]
      have plan : (u.place p).plan = u.plan := by rw [State.place, only]
      exact hu.kept ⟨fun x => signal ▸ x, fun x => ref ▸ x, plan, fun _ => running⟩
    · exact hu.kept (.of_eqs (by simp) (by simp) (by simp) (by simp))
  case timeMark mark =>
    rcases timeMark_cases hv with rfl | ⟨hstep, rfl⟩
    · exact .of_settled ((closeEvaluation_failureSignal _).trans (by simp))
    · exact hu.setRef fun hfailed => by rwa [mark_failed hfailed hstep]
  case markTimerExpiry =>
    rcases markTimerExpiry_cases hv with rfl | rfl
    · exact hu
    · exact hu.setRef fun hfailed => by simp [RefClock.loseMarks, hfailed]
  case holdoverTimerExpiry => exact Host.Outcome.next.inj hv ▸ hu.holdoverExpiry
  case withholdSuspension => exact Host.Outcome.next.inj hv ▸ .of_settled (by simp)
  case closeTimeReached =>
    rcases closeTimeReached_cases hv with rfl | rfl
    · exact hu
    · exact .of_settled ((closeEvaluation_failureSignal _).trans (by simp))
  case stallTimerExpiry => exact Host.Outcome.next.inj hv ▸ hu.kept (stallTimerExpiry_signal u)
  case grant =>
    rcases grant_cases hv with rfl | ⟨src, rfl⟩
    · exact hu
    · rcases grantSource_cases u src with ⟨_, _, _, heq⟩ | heq <;> rw [heq]
      · exact hu.kept (.of_eqs rfl rfl rfl rfl)
      · rcases grantOwn_cases u with heq | ⟨_, _, _, _, _, -, -, -, -, heq⟩ | ⟨_, _, -, heq⟩ <;> rw [heq] <;>
          exact hu.kept (.of_eqs rfl rfl rfl rfl)
  case fragmentCompletion =>
    rcases fragmentCompletion_cases hv with rfl | rfl
    · exact hu
    · have ended : SignalKept u { u with transmitting := none } := .of_eqs rfl rfl rfl rfl
      exact hu.kept (ended.comp (completeFragment_signal _))

/-- Settles O57: each command keeps the shape of the store (`StoreShape`), and the failure signal stands only where R55 lets it. -/
theorem windowAndQueueStayConsistent : Obligations.WindowAndQueueStayConsistent := by
  intro s t hs h
  have queued {u : State} (p : List Instr) (k : Nat) (hu : StoreInv u) : StoreInv { u with pending := p, ties := k } := by
    obtain ⟨shape, signal⟩ := (storeInv_iff u).1 hu
    exact (storeInv_iff _).2 ⟨shape.kept ⟨.of_eq rfl, rfl, rfl, .rfl, rfl, rfl⟩, signal.kept (.of_eqs rfl rfl rfl rfl)⟩
  refine step_keeps (I := StoreInv) queued (fun {u} _ hu => ?_) (fun c u v hv hu => ?_) hs h
  · obtain ⟨shape, signal⟩ := (storeInv_iff u).1 hu
    exact (storeInv_iff _).2 ⟨shape.kept ⟨.of_eq rfl, rfl, rfl, .rfl, rfl, rfl⟩, signal.kept ⟨id, id, rfl, id⟩⟩
  · obtain ⟨shape, signal⟩ := (storeInv_iff u).1 hu
    exact (storeInv_iff v).2 ⟨shape.exec hv, signal.exec hv⟩

end Sys2Proof.Machine
end

section
/-! The window's movement in full (R33, R57, R78, R81 to R84): what the close evaluation and its operations set and leave. -/

namespace Sys2Proof.Machine

variable {s t u : State}

/-! ## The other flags (R172) -/

theorem mem_flagOrder (f : EventFlag) : f ∈ flagOrder := by cases f <;> decide

theorem bit_and_bit_of_ne : ∀ f ∈ flagOrder, ∀ g ∈ flagOrder, g ≠ f → f.bit &&& g.bit = 0 := by decide

theorem hasFlag_raise_other (s : State) {f g : EventFlag} (h : g ≠ f) : hasFlag (s.raise f).flags g = hasFlag s.flags g := by
  cases hf : hasFlag s.flags f with
  | true => rw [raise_of_set hf]
  | false =>
    have apart := bit_and_bit_of_ne f (mem_flagOrder f) g (mem_flagOrder g) h
    have split : (s.flags ||| f.bit) &&& g.bit = (s.flags &&& g.bit) ||| (f.bit &&& g.bit) := by
      ext k
      simp [Bool.and_or_distrib_right]
    rw [raise_of_clear hf]
    simp only [hasFlag, split, apart, BitVec.ofNat_eq_ofNat, BitVec.or_zero]

/-! ## An epoch's opening and its close (R57, R78, R82) -/

theorem station_retireBelow {lo : Nat} (h : t.stations = assocMap (retireBelow lo) s.stations) (slot : Nat) :
    t.station slot = (s.station slot).map (fun st =>
      match st.previous with
      | some p => if p.eSw < lo then { st with previous := none } else st
      | none => st) := by
  rw [State.station, h, assocGet_map]
  rfl

/-- Settles O25: the opening is `openedRecord`, the close `EpochRecord.closedIn`. -/
theorem epochOpensAndCloses : Obligations.EpochOpensAndCloses := by
  refine ⟨fun s i e hs => ?_, fun s i r hr => ?_⟩
  · exact ⟨openedRecord s e, assocGet_put_same _ _ _, rfl, rfl, rfl, rfl, rfl, rfl, rfl, rfl,
      fun slot c => openedRecord_segment hs e slot c, rfl, fun j hj => assocGet_put_other _ _ hj⟩
  · rw [closeRecord_of_present hr]
    exact ⟨sectionsOf s.stations, assocGet_sectionsOf s.stations, rfl, station_retireBelow rfl⟩

/-! ## The front epochs, record by record (R84) -/

/-- What opening front epochs adds: every new record is one just opened, and a window short of W leaves no record Free. -/
structure FrontsAdded (s t : State) : Prop where
  added : ∀ j r, assocGet s.records j = none → assocGet t.records j = some r → ∃ e, r = openedRecord s e
  kept  : ∀ j r, assocGet s.records j = some r → assocGet t.records j = some r
  full  : t.openCount < s.plan.windowDepth → freeRecordNo t.records = none
  other : ∀ f, f ≠ .windowShort → hasFlag t.flags f = hasFlag s.flags f

/-- Nothing is opened. -/
theorem FrontsAdded.of_records (h : t.records = s.records) (hfull : t.openCount < s.plan.windowDepth → freeRecordNo s.records = none)
    (hflags : ∀ f, f ≠ .windowShort → hasFlag t.flags f = hasFlag s.flags f) : FrontsAdded s t where
  added := fun j r hnone hr => by
    rw [h, hnone] at hr
    cases hr
  kept := fun j r hr => h ▸ hr
  full := fun hlt => h ▸ hfull hlt
  other := hflags

theorem FrontsAdded.of_openEpoch {j e : Nat} (hfree : assocGet s.records j = none) (h : FrontsAdded (s.openEpoch j e) t) :
    FrontsAdded s t where
  added := fun k r hnone hr => by
    by_cases hk : k = j
    · have opened := h.kept j _ (assocGet_put_same _ _ _)
      rw [hk, opened] at hr
      exact ⟨e, (Option.some.inj hr).symm⟩
    · exact h.added k r ((assocGet_put_other _ _ hk).trans hnone) hr
  kept := fun k r hr => h.kept k r <| by
    have hne : k ≠ j := fun heq => by simp [heq, hfree] at hr
    exact (assocGet_put_other _ _ hne).trans hr
  full := h.full
  other := h.other

theorem openFronts_adds (lo k : Nat) (s : State) (hfuel : s.plan.windowDepth < s.openCount + k) :
    FrontsAdded s (openFronts lo k s) := by
  induction k generalizing s with
  | zero =>
    have deep : ¬ s.openCount < s.plan.windowDepth := by omega
    exact .of_records rfl (fun hlt => absurd hlt deep) fun _ _ => rfl
  | succ k ih =>
    unfold openFronts
    split
    next hroom =>
      split
      next j hfree =>
        obtain ⟨hnone, -⟩ := freeRecordNo_eq_some hfree
        refine .of_openEpoch hnone (ih _ ?_)
        rw [openCount_openEpoch hnone, State.openEpoch_plan]
        omega
      next hfull => exact .of_records (by simp) (fun _ => hfull) fun f hf => hasFlag_raise_other s hf
    next hwide => exact .of_records rfl (fun hlt => absurd hlt hwide) fun _ _ => rfl

/-! ## The close evaluation (R81 to R84) -/

/-- What the skip of the epochs below `first` does to a window from `lo` (R83). -/
structure Skipped (lo first : Nat) (s t : State) : Prop where
  frame    : t = { s with
    eLo := some (max lo first), pendingSkip := if lo < first then min (s.pendingSkip + (first - lo)) 65535 else s.pendingSkip
    stations := if lo < first then assocMap (retireBelow first) s.stations else s.stations, flags := t.flags
    noticeSlot := t.noticeSlot }
  flag     : hasFlag t.flags .skippedEpochs = true ↔ hasFlag s.flags .skippedEpochs = true ∨ lo < first
  other    : ∀ f, f ≠ .skippedEpochs → hasFlag t.flags f = hasFlag s.flags f

theorem skipTo_skips {lo : Nat} (hlo : s.eLo = some lo) (first : Nat) : Skipped lo first s (s.skipTo first) := by
  rw [State.skipTo, hlo]
  simp only
  by_cases h : lo < first
  · obtain ⟨flags, notice, hraise, -⟩ := raise_only s .skippedEpochs
    have flag := hasFlag_raise_same s .skippedEpochs
    have other (f : EventFlag) (hf : f ≠ .skippedEpochs) := hasFlag_raise_other s hf
    rw [hraise] at flag other
    rw [if_pos h, hraise]
    refine ⟨?_, by simp [flag, h, State.retireBelow], fun f hf => other f hf⟩
    simp only [if_pos h, Nat.max_eq_right (Nat.le_of_lt h)]
    rfl
  · rw [if_neg h]
    refine ⟨?_, by simp [h], fun _ _ => rfl⟩
    simp only [if_neg h, Nat.max_eq_left (Nat.not_lt.1 h), ← hlo]

theorem firstEpoch_eq_div (p : Plan) (nt : Nat) :
    p.firstEpoch nt = (nt - p.hold * 1000000) / (p.epochLength * 1000000) := by
  have holdNs : p.holdNs = p.hold * 1000000 := rfl
  have epochNs : p.epochNs = p.epochLength * 1000000 := rfl
  unfold Plan.firstEpoch
  rw [holdNs, epochNs]
  split
  next h => rw [Nat.sub_eq_zero_of_le (Nat.le_of_lt h), Nat.zero_div]
  next => rfl

/-- The close evaluation in its three parts: the due epochs close, the epochs below E_first are skipped, and the window opens. -/
theorem closeEvaluation_evaluates {lo : Nat} (h : StoreInv s) (hlo : s.eLo = some lo) :
    ∃ u v, DueClosed lo s u ∧ Skipped (lo + s.dueRecords.length) (s.plan.firstEpoch s.ref.ntNow) u v ∧
      FrontsOpened (max lo (s.plan.firstEpoch s.ref.ntNow)) v s.closeEvaluation ∧ FrontsAdded v s.closeEvaluation := by
  obtain ⟨shape, -⟩ := (storeInv_iff s).1 h
  have hrun : s.store ≠ .idle := shape.present.1 (by rw [hlo]; rfl)
  have closed := closeDue_closed shape hlo
  have eLo : s.closeDue.eLo = some (lo + s.dueRecords.length) := by rw [closed.frame]
  have plan : s.closeDue.plan = s.plan := by rw [closed.frame]
  have ref : s.closeDue.ref = s.ref := by rw [closed.frame]
  have skips := skipTo_skips eLo (s.plan.firstEpoch s.ref.ntNow)
  have skipped : StoreShape (s.closeDue.skipTo (s.plan.firstEpoch s.ref.ntNow)) :=
    closed.shape.skipTo eLo fun hlt => by
      rcases closed.first with heq | ⟨hopen, -⟩
      · omega
      · exact hopen
  have first : max (lo + s.dueRecords.length) (s.plan.firstEpoch s.ref.ntNow) = max lo (s.plan.firstEpoch s.ref.ntNow) := by
    rcases closed.first with heq | ⟨-, hlt⟩ <;> omega
  have eLo' : (s.closeDue.skipTo (s.plan.firstEpoch s.ref.ntNow)).eLo = some (max lo (s.plan.firstEpoch s.ref.ntNow)) := by
    rw [skips.frame, first]
  have eval : s.closeEvaluation = openFronts (max lo (s.plan.firstEpoch s.ref.ntNow)) 17
      (s.closeDue.skipTo (s.plan.firstEpoch s.ref.ntNow)) := by
    rw [State.closeEvaluation, if_neg hrun]
    simp only [plan, ref, State.openWindow, eLo']
  have depth : (s.closeDue.skipTo (s.plan.firstEpoch s.ref.ntNow)).plan.windowDepth < 17 := by
    obtain ⟨-, -, hdepth, -⟩ := (planInRange_iff _ _ _).1 skipped.plan
    omega
  obtain ⟨numbers, atMost⟩ := skipped.window _ eLo'
  rw [eval]
  refine ⟨_, _, closed, skips, openFronts_opens ⟨skipped.listed, numbers_openRecords_of_perm numbers, atMost⟩ ?_,
    openFronts_adds _ _ _ ?_⟩ <;> omega

theorem closeTimeReached_of_due {lo : Nat} (hf : s.failureSignal = false) (hlo : s.eLo = some lo)
    (hdue : s.plan.closeTime lo ≤ s.ref.ntNow) : exec .closeTimeReached s = .next s.closeEvaluation := by
  have due : s.closeDueNow = true := by simp [State.closeDueNow, hlo, hdue]
  change execCloseTimeReached s = _
  rw [execCloseTimeReached, if_pos due, withhold_of_settled hf]

/-- The window's lowest epoch after the close evaluation (R81). -/
def State.movedTo (s : State) (lo : Nat) : Nat := max lo (s.plan.firstEpoch s.ref.ntNow)

/-- What the close evaluation does to a window from `lo`, beside the records and the flags. -/
structure WindowMoved (lo : Nat) (s t : State) : Prop where
  reached : lo + s.dueRecords.length ≤ s.movedTo lo
  skip    : t.pendingSkip =
    if lo + s.dueRecords.length < s.movedTo lo then
      min ((if s.dueRecords = [] then s.pendingSkip else 0) + (s.movedTo lo - (lo + s.dueRecords.length))) 65535
    else if s.dueRecords = [] then s.pendingSkip else 0
  frame   : t = { s with
    eLo := some (s.movedTo lo), closedQueue := s.closedQueue ++ s.dueRecords.map (·.1), pendingSkip := t.pendingSkip
    records := t.records, stations := if lo < s.movedTo lo then assocMap (retireBelow (s.movedTo lo)) s.stations else s.stations
    flags := t.flags, noticeSlot := t.noticeSlot }

theorem closeEvaluation_moves {lo : Nat} (hinv : StoreInv s) (hlo : s.eLo = some lo) : WindowMoved lo s s.closeEvaluation := by
  obtain ⟨u, v, closed, skips, opened, -⟩ := closeEvaluation_evaluates hinv hlo
  generalize s.closeEvaluation = t at opened
  have reached : lo + s.dueRecords.length ≤ s.movedTo lo := by
    unfold State.movedTo
    rcases closed.first with heq | ⟨-, hlt⟩ <;> omega
  have total : max (lo + s.dueRecords.length) (s.plan.firstEpoch s.ref.ntNow) = s.movedTo lo := by
    unfold State.movedTo at reached ⊢
    omega
  have skips_iff : lo + s.dueRecords.length < s.plan.firstEpoch s.ref.ntNow ↔ lo + s.dueRecords.length < s.movedTo lo := by
    rw [← total]
    omega
  have by_skip (h : lo + s.dueRecords.length < s.plan.firstEpoch s.ref.ntNow) : s.plan.firstEpoch s.ref.ntNow = s.movedTo lo := by
    rw [← total]
    omega
  have none_iff : s.dueRecords = [] ↔ s.dueRecords.length = 0 := List.length_eq_zero_iff.symm
  have stations : v.stations = if lo < s.movedTo lo then assocMap (retireBelow (s.movedTo lo)) s.stations else s.stations := by
    rw [skips.frame, closed.frame]
    by_cases hskip : lo + s.dueRecords.length < s.plan.firstEpoch s.ref.ntNow
    · have moved : lo < s.movedTo lo := by
        rw [← by_skip hskip]
        omega
      rw [if_pos hskip, if_pos moved, by_skip hskip]
      split
      · rfl
      · exact assocMap_retireBelow reached _
    · have stays : lo + s.dueRecords.length = s.movedTo lo := by
        rw [skips_iff] at hskip
        omega
      rw [if_neg hskip, stays]
      by_cases hdue : s.dueRecords = []
      · have still : ¬ lo < s.movedTo lo := by
          rw [none_iff] at hdue
          omega
        rw [if_pos hdue, if_neg still]
      · have moved : lo < s.movedTo lo := by
          rw [none_iff] at hdue
          omega
        rw [if_neg hdue, if_pos moved]
  refine ⟨reached, ?_, ?_⟩
  · have skipped : v.pendingSkip = if lo + s.dueRecords.length < s.plan.firstEpoch s.ref.ntNow then
        min ((if s.dueRecords = [] then s.pendingSkip else 0) + (s.plan.firstEpoch s.ref.ntNow - (lo + s.dueRecords.length))) 65535
        else if s.dueRecords = [] then s.pendingSkip else 0 := by rw [skips.frame, closed.frame]
    rw [opened.frame]
    refine skipped.trans ?_
    by_cases hskip : lo + s.dueRecords.length < s.plan.firstEpoch s.ref.ntNow
    · rw [if_pos hskip, if_pos (skips_iff.1 hskip), by_skip hskip]
    · rw [if_neg hskip, if_neg (mt skips_iff.2 hskip)]
  · rw [opened.frame, ← stations, skips.frame, closed.frame, total]

/-- What the close evaluation does to the records (R78, R82). -/
structure WindowRecords (s t : State) : Prop where
  due   : ∀ (k j : Nat) (r : EpochRecord), s.dueRecords[k]? = some (j, r) →
    assocGet t.records j = some (r.closedIn s (if k = 0 then s.pendingSkip else 0))
  kept  : ∀ j r, assocGet s.records j = some r → (j, r) ∉ s.dueRecords → assocGet t.records j = some r
  fresh : ∀ j r, assocGet s.records j = none → assocGet t.records j = some r → ∃ e, r = openedRecord t e

theorem closeEvaluation_records {lo : Nat} (hinv : StoreInv s) (hlo : s.eLo = some lo) : WindowRecords s s.closeEvaluation := by
  obtain ⟨u, v, closed, skips, opened, added⟩ := closeEvaluation_evaluates hinv hlo
  generalize s.closeEvaluation = t at opened added
  have records : v.records = u.records := by rw [skips.frame]
  have listed : ∀ q ∈ s.dueRecords, assocGet s.records q.1 = some q.2 := fun q hq =>
    ((mem_openRecords hinv.sorted q.1 q.2).1 (List.mem_filter.1 hq).1).1
  have notDue (j : Nat) (h : ∀ r, assocGet s.records j = some r → (j, r) ∉ s.dueRecords) : j ∉ s.dueRecords.map (·.1) := by
    intro hj
    obtain ⟨⟨k, r⟩, hq, rfl⟩ := List.mem_map.1 hj
    exact h r (listed _ hq) hq
  refine ⟨fun k j r hk => ?_, fun j r hr hnot => ?_, fun j r hnone hr => ?_⟩
  · exact opened.kept j _ (records ▸ closed.closed k j r hk)
  · have out := notDue j fun r' hr' => by
      rw [hr] at hr'
      exact Option.some.inj hr' ▸ hnot
    exact opened.kept j r (by rw [records, closed.others j out, hr])
  · have out := notDue j fun r' hr' => by
      rw [hnone] at hr'
      cases hr'
    obtain ⟨e, rfl⟩ := added.added j r (by rw [records, closed.others j out, hnone]) hr
    refine ⟨e, ?_⟩
    rw [opened.frame]
    rfl

/-- What the close evaluation does to the event flags and to the Open records (R83, R84). -/
structure WindowOpened (lo : Nat) (s t : State) : Prop where
  skipped : hasFlag t.flags .skippedEpochs = true ↔
    hasFlag s.flags .skippedEpochs = true ∨ lo + s.dueRecords.length < s.movedTo lo
  short   : hasFlag t.flags .windowShort = true ↔ hasFlag s.flags .windowShort = true ∨ t.openCount < s.plan.windowDepth
  other   : ∀ f, f ≠ .skippedEpochs → f ≠ .windowShort → hasFlag t.flags f = hasFlag s.flags f
  window  : OpenFrom (s.movedTo lo) t
  full    : t.openCount < s.plan.windowDepth → ∀ j, j < 16 → (assocGet t.records j).isSome = true

theorem isSome_of_full {rs : Assoc EpochRecord} (h : freeRecordNo rs = none) {j : Nat} (hj : j < 16) : (assocGet rs j).isSome = true := by
  have listed := List.find?_eq_none.1 h j (List.mem_range.2 hj)
  simpa [Option.isSome_iff_ne_none] using listed

theorem closeEvaluation_opens_window {lo : Nat} (hinv : StoreInv s) (hlo : s.eLo = some lo) : WindowOpened lo s s.closeEvaluation := by
  obtain ⟨u, v, closed, skips, opened, added⟩ := closeEvaluation_evaluates hinv hlo
  have moved := closeEvaluation_moves hinv hlo
  generalize s.closeEvaluation = t at opened added moved
  have plan : v.plan = s.plan := by rw [skips.frame, closed.frame]
  have flags : u.flags = s.flags := by rw [closed.frame]
  have skips_iff : lo + s.dueRecords.length < s.plan.firstEpoch s.ref.ntNow ↔ lo + s.dueRecords.length < s.movedTo lo := by
    unfold State.movedTo
    omega
  have short := opened.short
  have count := opened.count
  rw [plan] at short count
  refine ⟨?_, ?_, fun f hskip hshort => ?_, opened.window, fun hlt j hj => isSome_of_full (added.full (plan ▸ hlt)) hj⟩
  · rw [added.other .skippedEpochs (by simp), skips.flag, flags, skips_iff]
  · rw [short, skips.other .windowShort (by simp), flags]
    refine or_congr_right ?_
    omega
  · rw [added.other f hshort, skips.other f hskip, flags]

/-- Settles O24: the parts of the close evaluation, as `WindowMoved`, `WindowRecords` and `WindowOpened` say. -/
theorem closeEvaluationMovesWindow : Obligations.CloseEvaluationMovesWindow := by
  refine ⟨fun s lo hinv hstations hlo => ?_, fun s hidle => if_pos hidle, fun s lo hf hlo hdue => closeTimeReached_of_due hf hlo hdue⟩
  have moved := closeEvaluation_moves hinv hlo
  have records := closeEvaluation_records hinv hlo
  have opens := closeEvaluation_opens_window hinv hlo
  have evolved := closeEvaluation_stations s
  intro t due first reached pending
  have first_eq : first = s.movedTo lo := congrArg (max lo) (firstEpoch_eq_div s.plan s.ref.ntNow).symm
  have plan : t.plan = s.plan := by
    simp only [t]
    rw [moved.frame]
  have stations : t.stations = if lo < first then assocMap (retireBelow first) s.stations else s.stations := by
    rw [first_eq]
    exact congrArg State.stations moved.frame
  rw [first_eq] at stations ⊢
  refine ⟨congrArg State.eLo moved.frame, moved.reached, congrArg State.closedQueue moved.frame, moved.skip, opens.skipped, opens.short,
    opens.other, opens.window.numbers, plan ▸ opens.window.atMost, opens.full, fun k j r hk => ?_, records.kept, fun j r hnone hr => ?_,
    fun heq => ?_, fun hlt => ?_, ?_⟩
  · exact ⟨sectionsOf s.stations, assocGet_sectionsOf s.stations, records.due k j r hk⟩
  · obtain ⟨e, rfl⟩ := records.fresh j r hnone hr
    refine ⟨rfl, ?_, ?_, rfl, rfl, rfl, rfl, fun slot c => ?_⟩
    · exact congrArg (fun p : Plan => e * (p.epochLength * 1000000)) plan
    · exact congrArg Plan.epochLength plan
    · rw [openedRecord_segment (evolved.sorted hstations), SameN.of_evolve plan evolved]
      rfl
  · rw [stations, if_neg (by omega)]
  · rw [if_pos hlt] at stations
    exact station_retireBelow stations
  · have eLo : t.eLo = some (s.movedTo lo) := congrArg State.eLo moved.frame
    have queue : t.closedQueue = s.closedQueue ++ s.dueRecords.map (·.1) := congrArg State.closedQueue moved.frame
    rw [eLo, queue, stations]
    exact moved.frame

end Sys2Proof.Machine
end

section
/-! What the Emitter frees, and RESTART: a stall expiry (R139, R140, R148), a fragment's completion (R136, R137), and RESTART in every
block (R178). -/

namespace Sys2Proof.Machine

variable {s t u : State}

/-! ## A record freed (R84, R88, R97) -/

theorem endStarved_eq (s : State) : s.endStarved =
    if s.store = .starved ∧ s.failureSignal = false ∧ 1024 ≤ s.freePages.length then { s with store := .ready } else s := by
  have enough : atLeast Config.starvedEnd s.freePages = true ↔ 1024 ≤ s.freePages.length := by simp [Config.starvedEnd]
  exact if_congr (and_congr_right' (and_congr_right' enough)) rfl rfl

theorem dropRecord_globals (s : State) (j : Nat) : (s.dropRecord j).globals = s.globals := by
  unfold State.dropRecord
  split <;> rfl

theorem openFrontAfterFree_globals (s : State) : s.openFrontAfterFree.globals = s.globals := by
  unfold State.openFrontAfterFree
  split
  · split <;> rfl
  · rfl

theorem freeEmitted_globals (s : State) (j : Nat) : (s.freeEmitted j).globals = s.globals := by
  rw [State.freeEmitted, openFrontAfterFree_globals]
  simp [dropRecord_globals]

/-- The lowest-numbered Free record. -/
theorem freeRecordNo_eq_some_iff {rs : Assoc EpochRecord} {j : Nat} : freeRecordNo rs = some j ↔
    assocGet rs j = none ∧ j < 16 ∧ ∀ k, k < j → (assocGet rs k).isSome = true := by
  have range : freeRecordNo rs = (List.range 16).find? (fun k => (assocGet rs k).isNone) := rfl
  rw [range, List.find?_range_eq_some]
  simp [Option.isSome_iff_ne_none]

/-- The state with record `j` freed and its pages back, and Starved ended if they suffice (R88, R97). -/
def State.freed (s : State) (j : Nat) (r : EpochRecord) : State :=
  { s with
    records := assocErase s.records j, freePages := s.freePages ++ r.pageList
    store := if s.store = .starved ∧ s.failureSignal = false ∧ 1024 ≤ (s.freePages ++ r.pageList).length then .ready else s.store }

theorem freed_of_present {j : Nat} {r : EpochRecord} (hr : assocGet s.records j = some r) :
    (s.dropRecord j).endStarved = s.freed j r := by
  rw [dropRecord_of_present hr, endStarved_eq]
  unfold State.freed
  split <;> rfl

theorem freeEmitted_opens_front {j lo : Nat} {r : EpochRecord} (hr : assocGet s.records j = some r) (hlo : s.eLo = some lo)
    (hrun : s.store ≠ .idle) (hroom : (s.freed j r).openCount < s.plan.windowDepth) (hj : j < 16) :
    ∃ k, k ≤ j ∧ assocGet (s.freed j r).records k = none ∧ (∀ k', k' < k → (assocGet (s.freed j r).records k').isSome = true) ∧
      s.freeEmitted j = (s.freed j r).openEpoch k (lo + (s.freed j r).openCount) := by
  have gone : assocGet (s.freed j r).records j = none := by
    change assocGet (assocErase s.records j) j = none
    rw [assocGet_erase, if_pos rfl]
  have running : (s.freed j r).store ≠ .idle := by
    change (if _ then StoreState.ready else s.store) ≠ .idle
    split
    · simp
    · exact hrun
  cases hfree : freeRecordNo (s.freed j r).records with
  | none => simpa [gone] using isSome_of_full hfree hj
  | some k =>
    obtain ⟨hnone, -, hbelow⟩ := freeRecordNo_eq_some_iff.1 hfree
    refine ⟨k, Nat.le_of_not_lt fun hlt => ?_, hnone, hbelow, ?_⟩
    · simpa [gone] using hbelow j hlt
    · rw [State.freeEmitted, freed_of_present hr]
      exact openFrontAfterFree_of_room hlo hfree ⟨running, hroom⟩

theorem freeEmitted_opens_none {j : Nat} {r : EpochRecord} (hr : assocGet s.records j = some r)
    (h : s.store = .idle ∨ s.eLo = none ∨ s.plan.windowDepth ≤ (s.freed j r).openCount) : s.freeEmitted j = s.freed j r := by
  rw [State.freeEmitted, freed_of_present hr]
  refine openFrontAfterFree_of_noRoom fun lo k hlo _ hroom => ?_
  obtain ⟨hrun, hlt⟩ := hroom
  rcases h with hidle | hnone | hwide
  · refine hrun ?_
    simp [State.freed, hidle]
  · rw [show s.eLo = some lo from hlo] at hnone
    cases hnone
  · exact absurd hlt (Nat.not_lt.2 hwide)

/-! ## A stall expiry (R139, R140, R148) -/

theorem exec_stallTimerExpiry_of_due {n : Nat} (ht : s.stallTimer = some n) (hdue : s.stallLimit * 1000000000 ≤ n) :
    exec .stallTimerExpiry s = .next { s.stallExpiry with stallTimer := some 0 } := by
  have due : timerDue s.stallNs s.stallTimer = true := by
    rw [ht]
    exact decide_eq_true hdue
  change (.next s.stallTimerExpiry : Result) = _
  rw [State.stallTimerExpiry, if_pos due]

theorem stallExpiry_of_head {j : Nat} {rest : List Nat} (hq : s.closedQueue = j :: rest)
    (h : s.emitter = .idle ∨ ∃ e, s.emitter = .sending e .abandoned) :
    s.stallExpiry = (({ s with closedQueue := rest } : State).freeEmitted j).countDrop := by
  have head : s.dropHead = (({ s with closedQueue := rest } : State).freeEmitted j).countDrop := by rw [State.dropHead, hq]
  rcases h with he | ⟨e, he⟩ <;> simp [State.stallExpiry, he, head]

theorem stallExpiry_of_empty (hq : s.closedQueue = []) (h : s.emitter = .idle ∨ ∃ e, s.emitter = .sending e .abandoned) :
    s.stallExpiry = s := by
  have head : s.dropHead = s := by rw [State.dropHead, hq]
  rcases h with he | ⟨e, he⟩ <;> simp [State.stallExpiry, he, head]

/-- One epoch counted as given up, the timer starting again. -/
theorem countDrop_restarted (h : t.globals = s.globals) : ({ t.countDrop with stallTimer := some 0 } : State) =
    { t.raise .emitDrop with
      stallTimer := some 0, globals := { s.globals with epochsDropped := bump s.globals.epochsDropped } } := by
  have kept : (t.raise .emitDrop).globals = s.globals := by simp [h]
  rw [State.countDrop, h]

/-- Settles O26: each state of the Emitter is one branch of the expiry; a record freed is `State.freed`, before a front epoch opens. -/
theorem stallExpiryGivesUpOneEpoch : Obligations.StallExpiryGivesUpOneEpoch := by
  refine ⟨fun s n ht hdue => ?_, fun s i r hr => ⟨fun lo hlo hrun hroom hi => ?_, fun h => freeEmitted_opens_none hr h⟩⟩
  · rw [exec_stallTimerExpiry_of_due ht hdue]
    intro counted
    refine ⟨fun e he => ?_, fun e fate he hne hnext => ?_, fun e fate he hne hlast => ?_, fun h => ⟨fun i rest hq => ?_, fun hq => ?_⟩⟩
    · have expiry : s.stallExpiry = ({ s.freeEmitted e.record with emitter := .idle } : State).countDrop := by
        rw [State.stallExpiry, he]
      rw [expiry]
      exact congrArg Host.Outcome.next
        (countDrop_restarted (t := { s.freeEmitted e.record with emitter := .idle }) (freeEmitted_globals s e.record))
    · have notLast : e.atLast = false := by simpa [Emission.atLast] using hnext
      have expiry : s.stallExpiry = ({ s with emitter := .sending e .abandoned } : State).countDrop := by
        simp [State.stallExpiry, he, hne, notLast]
      rw [expiry]
      exact congrArg Host.Outcome.next (countDrop_restarted (t := { s with emitter := .sending e .abandoned }) rfl)
    · have last : e.atLast = true := by simpa [Emission.atLast] using hlast
      have expiry : s.stallExpiry = { s with deferredExpiries := s.deferredExpiries + 1 } := by
        simp [State.stallExpiry, he, hne, last]
      rw [expiry]
    · rw [stallExpiry_of_head hq h]
      exact congrArg Host.Outcome.next (countDrop_restarted (freeEmitted_globals ({ s with closedQueue := rest } : State) i))
    · rw [stallExpiry_of_empty hq h]
  · exact freeEmitted_opens_front hr hlo hrun hroom hi

/-! ## The pages of a fragment (R136) -/

/-- Segments of a record freed: those of a property have no pages any more. -/
def PagesFreed (f : Nat → Fin 4 → Prop) (r r' : EpochRecord) : Prop :=
  ∀ slot c, (f slot c → r'.segment slot c = { r.segment slot c with pages := [] }) ∧
    (¬ f slot c → r'.segment slot c = r.segment slot c)

/-- All that freeing the pages of some segments of record `j` does. -/
structure SegmentsFreed (j : Nat) (f : Nat → Fin 4 → Prop) (pages : List PageNo) (r : EpochRecord) (s t : State) : Prop where
  free    : t.freePages = s.freePages ++ pages
  present : ∃ r', assocGet t.records j = some r' ∧ PagesFreed f r r'

theorem freeSegmentPages_of_present {j : Nat} {r : EpochRecord} (hr : assocGet s.records j = some r) (slot : Nat) (c : Fin 4) :
    SegmentsFreed j (fun k d => k = slot ∧ d = c) (r.segment slot c).pageList r s (s.freeSegmentPages j slot c) := by
  rw [State.freeSegmentPages, hr]
  refine ⟨rfl, _, assocGet_put_same _ _ _, fun k d => ⟨fun h => ?_, fun h => ?_⟩⟩
  · rw [segment_putSegment, if_pos h, h.1, h.2]
  · rw [segment_putSegment, if_neg h]

/-- Freeing one set of segments and then another that it does not touch. -/
theorem SegmentsFreed.comp {j : Nat} {f g : Nat → Fin 4 → Prop} {ps qs : List PageNo} {r r' : EpochRecord}
    (h : SegmentsFreed j f ps r s t) (hr' : assocGet t.records j = some r') (k : SegmentsFreed j g qs r' t u)
    (apart : ∀ slot c, f slot c → ¬ g slot c) : SegmentsFreed j (fun slot c => f slot c ∨ g slot c) (ps ++ qs) r s u := by
  obtain ⟨x, hx, freed⟩ := h.present
  rw [hr'] at hx
  cases hx
  obtain ⟨r'', hr'', freed'⟩ := k.present
  refine ⟨by rw [k.free, h.free, List.append_assoc], r'', hr'', fun slot c => ?_⟩
  by_cases hf : f slot c
  · have hg := apart slot c hf
    rw [(freed' slot c).2 hg, (freed slot c).1 hf]
    simp [hf]
  · by_cases hg : g slot c
    · rw [(freed' slot c).1 hg, (freed slot c).2 hf]
      simp [hf, hg]
    · rw [(freed' slot c).2 hg, (freed slot c).2 hf]
      simp [hf, hg]

theorem SegmentsFreed.nothing {j : Nat} {r : EpochRecord} (hr : assocGet s.records j = some r) {f : Nat → Fin 4 → Prop}
    (hf : ∀ slot c, ¬ f slot c) : SegmentsFreed j f [] r s s :=
  ⟨(List.append_nil _).symm, r, hr, fun slot c => ⟨fun h => absurd h (hf slot c), fun _ => rfl⟩⟩

theorem SegmentsFreed.of_iff {j : Nat} {f g : Nat → Fin 4 → Prop} {ps : List PageNo} {r : EpochRecord}
    (h : SegmentsFreed j f ps r s t) (hfg : ∀ slot c, f slot c ↔ g slot c) : SegmentsFreed j g ps r s t := by
  obtain ⟨r', hr', freed⟩ := h.present
  exact ⟨h.free, r', hr', fun slot c => ⟨fun hg => (freed slot c).1 ((hfg slot c).2 hg), fun hg => (freed slot c).2 (mt (hfg slot c).1 hg)⟩⟩

theorem freeChannels_of_present {j : Nat} {r : EpochRecord} (hr : assocGet s.records j = some r) (slot : Nat) {cs : List (Fin 4)}
    (hcs : cs.Nodup) : SegmentsFreed j (fun k d => k = slot ∧ d ∈ cs) (cs.flatMap (fun c => (r.segment slot c).pageList)) r s
      (cs.foldl (fun s c => s.freeSegmentPages j slot c) s) := by
  induction cs generalizing s r with
  | nil => exact .nothing hr (by simp)
  | cons c cs ih =>
    obtain ⟨hc, hcs⟩ := List.nodup_cons.1 hcs
    have first := freeSegmentPages_of_present hr slot c
    obtain ⟨r', hr', freed⟩ := first.present
    have later := ih hr' hcs
    have same : cs.flatMap (fun c => (r'.segment slot c).pageList) = cs.flatMap (fun c => (r.segment slot c).pageList) := by
      refine List.flatMap_congr fun d hd => ?_
      rw [(freed slot d).2 fun heq => hc (heq.2 ▸ hd)]
    have both := first.comp hr' later fun k d h h' => hc (h.2 ▸ h'.2)
    rw [same] at both
    exact both.of_iff fun k d => by
      rw [List.mem_cons]
      tauto

theorem freeSlots_of_present {j : Nat} {r : EpochRecord} (hr : assocGet s.records j = some r) {l : List Nat} (hl : l.Nodup) :
    SegmentsFreed j (fun k _ => k ∈ l) (l.flatMap (fun slot => channels4.flatMap (fun c => (r.segment slot c).pageList))) r s
      (l.foldl (fun s slot => channels4.foldl (fun s c => s.freeSegmentPages j slot c) s) s) := by
  induction l generalizing s r with
  | nil => exact .nothing hr (by simp)
  | cons slot l ih =>
    obtain ⟨hslot, hl⟩ := List.nodup_cons.1 hl
    have every : ∀ c : Fin 4, c ∈ channels4 := by decide
    have first := freeChannels_of_present hr slot (cs := channels4) (by decide)
    obtain ⟨r', hr', freed⟩ := first.present
    have later := ih hr' hl
    have same : l.flatMap (fun slot => channels4.flatMap (fun c => (r'.segment slot c).pageList)) =
        l.flatMap (fun slot => channels4.flatMap (fun c => (r.segment slot c).pageList)) := by
      refine List.flatMap_congr fun k hk => List.flatMap_congr fun d _ => ?_
      rw [(freed k d).2 fun heq => hslot (heq.1 ▸ hk)]
    have both := first.comp hr' later fun k d h h' => hslot (h.1 ▸ h')
    rw [same] at both
    exact both.of_iff fun k d => by
      rw [List.mem_cons]
      simp [every]

/-! ## A fragment's completion (R137, R139, R143) -/

theorem exec_fragmentCompletion_of_own {f : TxFrame} (hf : s.transmitting = some f) (hown : f.source = .own) :
    exec .fragmentCompletion s = .next ({ s with transmitting := none } : State).completeFragment := by
  change execFragmentCompletion s = _
  simp [execFragmentCompletion, State.sendingFrom, hf, hown]

theorem freeFragmentPages_deferred (s : State) (e : Emission) : (s.freeFragmentPages e).deferredExpiries = s.deferredExpiries := by
  have segment (u : State) (slot : Nat) (c : Fin 4) : (u.freeSegmentPages e.record slot c).deferredExpiries = u.deferredExpiries := by
    unfold State.freeSegmentPages
    split <;> rfl
  have channels (slot : Nat) (cs : List (Fin 4)) (u : State) :
      (cs.foldl (fun s c => s.freeSegmentPages e.record slot c) u).deferredExpiries = u.deferredExpiries := by
    induction cs generalizing u with
    | nil => rfl
    | cons c cs ih => exact (ih _).trans (segment u slot c)
  unfold State.freeFragmentPages
  generalize e.slotsOf = l
  induction l generalizing s with
  | nil => rfl
  | cons slot l ih => exact (ih _).trans (channels slot channels4 s)

theorem freeEmitted_deferred (s : State) (j : Nat) : (s.freeEmitted j).deferredExpiries = s.deferredExpiries := by
  have dropped : (s.dropRecord j).deferredExpiries = s.deferredExpiries := by
    unfold State.dropRecord
    split <;> rfl
  have opened (u : State) : u.openFrontAfterFree.deferredExpiries = u.deferredExpiries := by
    unfold State.openFrontAfterFree
    split
    · split <;> rfl
    · rfl
  rw [State.freeEmitted, opened]
  simpa using dropped

theorem completeFragment_of_more {e : Emission} (he : s.emitter = .sending e .goesOn) (h : e.atLast = false) :
    s.completeFragment = { (s.freeFragmentPages e).endStarved with emitter := .building { e with next := e.next + 1 } } := by
  rw [State.completeFragment, he]
  exact if_neg (by rw [h]; simp)

theorem completeFragment_of_last {e : Emission} (he : s.emitter = .sending e .goesOn) (h : e.atLast = true) :
    s.completeFragment =
      { dropHeads s.deferredExpiries { ((s.freeFragmentPages e).endStarved).freeEmitted e.record with emitter := .idle } with
        deferredExpiries := 0 } := by
  have count : (((s.freeFragmentPages e).endStarved).freeEmitted e.record).deferredExpiries = s.deferredExpiries := by
    rw [freeEmitted_deferred]
    simpa using freeFragmentPages_deferred s e
  rw [State.completeFragment, he, ← count]
  exact if_pos h

theorem completeFragment_of_ended {e : Emission} {fate : Fate} (he : s.emitter = .sending e fate) (h : fate ≠ .goesOn) :
    s.completeFragment =
      { dropHeads s.deferredExpiries { (s.freeFragmentPages e).freeEmitted e.record with emitter := .idle } with
        deferredExpiries := 0 } := by
  have count : ((s.freeFragmentPages e).freeEmitted e.record).deferredExpiries = s.deferredExpiries :=
    (freeEmitted_deferred _ _).trans (freeFragmentPages_deferred s e)
  rw [State.completeFragment, he, ← count]
  cases fate with
  | goesOn => exact absurd rfl h
  | abandoned => rfl
  | restarted => rfl

/-- Settles O29: each state of the Emitter is one branch of the completion; the fragment's pages come back segment by segment. -/
theorem fragmentCompletionFreesPages : Obligations.FragmentCompletionFreesPages := by
  refine ⟨fun s f e hf hown => ?_, fun _ => rfl, fun _ _ => rfl, endStarved_eq, fun s e r hr hnodup => ?_⟩
  · rw [exec_fragmentCompletion_of_own hf hown]
    exact ⟨fun he hnext => congrArg Host.Outcome.next (completeFragment_of_more he (by simpa [Emission.atLast] using hnext)),
      fun he hlast => congrArg Host.Outcome.next (completeFragment_of_last he (by simpa [Emission.atLast] using hlast)),
      fun fate he hne => congrArg Host.Outcome.next (completeFragment_of_ended he hne)⟩
  · have freed := freeSlots_of_present hr hnodup
    obtain ⟨r', hr', segments⟩ := freed.present
    refine ⟨freed.free, r', hr', fun slot c => ?_⟩
    split
    next hin => exact (segments slot c).1 hin
    next hout => exact (segments slot c).2 hout

/-! ## RESTART (R23, R34, R102, R118, R143, R151, R178) -/

theorem restartStation_channel (st : Station) (c : Fin 4) :
    ((restartStation st).channels.get c).rate = (st.channels.get c).rate ∧
      ((restartStation st).channels.get c).word = (st.channels.get c).word ∧
      ((restartStation st).channels.get c).order = (st.channels.get c).order ∧
      ((restartStation st).channels.get c).window = none := by
  fin_cases c <;> exact ⟨rfl, rfl, rfl, rfl⟩

theorem restartAll_trunk (s : State) (q : Port) : s.restartAll.trunk q = restartTrunk (s.trunk q) := by
  cases q <;> rfl

theorem restartAll_station (s : State) (slot : Nat) : s.restartAll.station slot = (s.station slot).map restartStation :=
  assocGet_map restartStation s.stations slot

/-- An Emitter in Sending keeps its record, which does not go on; any other is Idle (R143). -/
theorem restartEmitter_cases (x : Emitter) :
    (restartEmitter x = .idle ∧ ∀ b fate, x ≠ .sending b fate) ∨
      ∃ b fate fate', x = .sending b fate ∧ restartEmitter x = .sending b fate' ∧ fate' ≠ .goesOn := by
  cases x with
  | idle => exact .inl ⟨rfl, by simp⟩
  | building b => exact .inl ⟨rfl, by simp⟩
  | sending b fate =>
    refine .inr ⟨b, fate, _, rfl, rfl, ?_⟩
    split <;> simp

theorem restartAll_eq (hs : assocSorted s.records = true) :
    ∃ records, LeftOver s.RestartFrees s { s with records := records } ∧ s.restartAll = { s with
      portA := restartTrunk s.portA, portB := restartTrunk s.portB, stations := assocMap restartStation s.stations
      records := records, emitter := restartEmitter s.emitter, chain := s.chain.clearCounters, globals := GlobalCounters.reset
      store := .idle, eLo := none, pendingSkip := 0, rememberedStarved := false, closedQueue := [], deferredExpiries := 0
      noticeSlot := none, flags := 0
      freePages := s.freePages ++ (byEpoch s.restartRecords).flatMap (fun r => r.2.pageList) } := by
  obtain ⟨records, hdrop, left⟩ := dropRestartRecords_eq hs
  refine ⟨records, left, ?_⟩
  rw [State.restartAll, hdrop]
  rfl

/-- Settles O49: RESTART block by block, as `restartAll_eq` lists them. -/
theorem restartOfEveryBlock : Obligations.RestartOfEveryBlock := by
  intro s p e rest h hfree hsorted freed
  obtain ⟨records, left, heq⟩ := restartAll_eq hsorted
  have emitter : s.restartAll.emitter = restartEmitter s.emitter := rfl
  have listed : s.restartAll.records = records := by rw [heq]
  have chain : s.restartAll.chain = s.chain.clearCounters := rfl
  have globals : s.restartAll.globals = GlobalCounters.reset := rfl
  refine ⟨s.restartAll, congrArg Host.Outcome.next (runDirective_takes h (by simp [waitsForPath, hfree])), restartAll_trunk s,
    fun slot hv => by rw [restartAll_station, hv]; rfl, fun slot st hst => ?_, listed ▸ left.gone, listed ▸ left.kept,
    listed ▸ left.free, ?_, fun b fate hb => ?_, ?_, ?_, rfl, rfl, rfl, rfl, rfl, rfl, ?_⟩
  · refine ⟨restartStation st, by rw [restartAll_station, hst]; rfl, rfl, rfl, rfl, rfl, rfl, rfl, rfl, rfl,
      counterList_restartStation st, restartStation_channel st⟩
  · rw [emitter]
    rcases restartEmitter_cases s.emitter with ⟨hidle, -⟩ | ⟨b, fate, fate', hb, hb', hne⟩
    · exact .inl hidle
    · exact .inr ⟨b, fate, hb, fate', hb', hne⟩
  · rw [emitter, hb]
    simp [restartEmitter]
  · simp [chain, ChainPort.clearCounters, ChainPort.counterList]
  · simp [globals, GlobalCounters.reset, GlobalCounters.counterList]
  · rw [heq]

end Sys2Proof.Machine
end

section
/-! Time, the trunk ports and the acceptance of a packet: an idle step (R41), a port going Down (R10, R109), the timers' expiries (R8,
R48, R51, R53, R55), the lookup (R2), the checks (R113 to R115) and the sequence filter (R116, R120). -/

namespace Sys2Proof.Machine

variable {s t u : State}

/-! ## Running time (R41) -/

theorem run_of_inRange {d : Nat} (h : s.ref.ntNow + d < 2 ^ 64) : s.run d =
    { s with
      ref :=
        { s.ref with
          ntNow := s.ref.ntNow + d, markTimer := s.ref.markTimer.map (· + d), holdoverTimer := s.ref.holdoverTimer.map (· + d) }
      portA := { s.portA with timer := s.portA.timer.map (· + d) }
      portB := { s.portB with timer := s.portB.timer.map (· + d) }
      chain := { s.chain with timer := s.chain.timer.map (· + d) }
      stallTimer := s.stallTimer.map (· + d)
      stations := (s.run d).stations } := by
  have now : s.ref.ntAfter d = s.ref.ntNow + d := if_pos h
  rw [State.run, now]
  rfl

/-- Settles O2: the two cases of an idle step, and running time timer by timer. -/
theorem idleStepPassesTime : Obligations.IdleStepPassesTime := by
  refine ⟨fun s hp => ?_, fun s d h => ⟨run_of_inRange h, fun slot => assocGet_map _ _ _⟩⟩
  have idle : step s = .next s.idleStep := by rw [step, hp]
  rw [idle]
  refine ⟨fun hnone => ?_, fun hsome => ?_⟩
  · rw [State.idleStep, hnone]
  · rcases idleStep_cases s with ⟨hnone, -⟩ | ⟨c, hc, k, hk, heq⟩
    · exact absurd hnone hsome
    · exact ⟨c, hc, k, hk, congrArg Host.Outcome.next heq⟩

/-! ## A trunk port goes Down (R10, R107 to R109) -/

theorem exists_port {P : Port → Prop} : (∃ q, P q) ↔ P .a ∨ P .b := by
  constructor
  · rintro ⟨q, hq⟩
    cases q
    · exact .inl hq
    · exact .inr hq
  · rintro (h | h)
    · exact ⟨_, h⟩
    · exact ⟨_, h⟩

theorem isUp_iff (l : LinkState) : l.isUp = true ↔ l = .up := by cases l <;> simp [LinkState.isUp]

theorem losesRoute_iff (s : State) (st : Station) :
    s.losesRoute st = true ↔ st.state = .tracking ∧ ¬ ∃ q, st.mask.has q = true ∧ (s.trunk q).link = .up := by
  have maskUp : s.maskUp st.mask = true ↔ ∃ q, st.mask.has q = true ∧ (s.trunk q).link = .up := by
    rw [exists_port, State.maskUp, Bool.or_eq_true, Bool.and_eq_true, Bool.and_eq_true, isUp_iff, isUp_iff]
    rfl
  rw [State.losesRoute, Bool.and_eq_true, decide_eq_true_iff, Bool.not_eq_true', ← Bool.not_eq_true, maskUp]

/-- Route loss silences the Tracking stations without an Up port, and raises STATION-SILENT if there is one (R10). -/
structure RouteLost (s t : State) : Prop where
  lost   : ∀ slot st, s.station slot = some st → s.losesRoute st = true →
    t.station slot = some { st with state := .silent, silence := none }
  kept   : ∀ slot st, s.station slot = some st → s.losesRoute st = false → t.station slot = some st
  vacant : ∀ slot, s.station slot = none → t.station slot = none
  some   : (∃ slot st, s.station slot = some st ∧ s.losesRoute st = true) →
    t = { s.raise .stationSilent with stations := t.stations }
  none   : (∀ slot st, (slot, st) ∈ s.stations → s.losesRoute st = false) → t = { s with stations := t.stations }

theorem routeLoss_loses (s : State) : RouteLost s s.routeLoss := by
  let silenced (st : Station) : Station := if s.losesRoute st then { st with state := .silent, silence := none } else st
  let u : State := { s with stations := assocMap silenced s.stations }
  have eq : s.routeLoss = if s.stations.any (fun p => s.losesRoute p.2) then u.raise .stationSilent else u := rfl
  have stations : s.routeLoss.stations = assocMap silenced s.stations := by
    rw [eq]
    split
    · simp [u]
    · rfl
  have looked (slot : Nat) : s.routeLoss.station slot = (s.station slot).map silenced := by
    rw [State.station, stations, assocGet_map]
    rfl
  have raised : u.raise .stationSilent = { s.raise .stationSilent with stations := assocMap silenced s.stations } := by
    unfold State.raise
    by_cases h : hasFlag s.flags .stationSilent = true
    · rw [if_pos h, if_pos h]
    · rw [if_neg h, if_neg h]
  refine ⟨fun slot st hst hl => ?_, fun slot st hst hl => ?_, fun slot hv => ?_, fun ⟨slot, st, hst, hl⟩ => ?_, fun hnone => ?_⟩
  · rw [looked, hst, Option.map_some]
    exact congrArg _ (if_pos hl)
  · rw [looked, hst, Option.map_some]
    exact congrArg _ (if_neg (by simp [hl]))
  · rw [looked, hv, Option.map_none]
  · have any : s.stations.any (fun p => s.losesRoute p.2) = true :=
      List.any_eq_true.2 ⟨(slot, st), mem_of_assocGet hst, hl⟩
    rw [stations, eq, if_pos any, raised]
  · have any : ¬ s.stations.any (fun p => s.losesRoute p.2) = true := fun h => by
      obtain ⟨⟨slot, st⟩, hp, hl⟩ := List.any_eq_true.1 h
      rw [hnone slot st hp] at hl
      cases hl
    rw [stations, eq, if_neg any]

theorem exec_portDown {p : Port} {c : Instr} (hc : c = .lossOfSignalIndication p ∨
    c = .linkLossTimerExpiry p ∧ ∃ e, (s.trunk p).timer = some e ∧ s.linkLossTime * 1000000 ≤ e) :
    exec c s = .next (s.portDown p) := by
  rcases hc with rfl | ⟨rfl, e, ht, hdue⟩
  · rfl
  · have due : timerDue s.linkLossNs (s.trunk p).timer = true := by
      rw [ht]
      exact decide_eq_true hdue
    change (.next (if timerDue s.linkLossNs (s.trunk p).timer then s.portDown p else s) : Result) = _
    rw [if_pos due]

/-- Settles O5: a port going Down is the port's change, its flag, and the route loss that follows (`RouteLost`). -/
theorem trunkPortGoesDown : Obligations.TrunkPortGoesDown := by
  intro p s c hup hc s1 silenced
  have down : s.portDown p = s1.routeLoss := by rw [State.portDown, if_pos hup]
  have stations : s1.stations = s.stations := by simp [s1]
  have station (slot : Nat) : s1.station slot = s.station slot := congrArg (assocGet · slot) stations
  have silenced_iff (st : Station) : silenced st ↔ s1.losesRoute st = true := (losesRoute_iff s1 st).symm
  have lost := routeLoss_loses s1
  refine ⟨s1.routeLoss, by rw [exec_portDown hc, down], fun slot st hst hs => ?_, fun slot st hst hs => ?_, fun slot hv => ?_, ?_,
    fun h => ?_⟩
  · exact lost.lost slot st ((station slot).trans hst) ((silenced_iff st).1 hs)
  · exact lost.kept slot st ((station slot).trans hst) (eq_false_of_ne_true (mt (silenced_iff st).2 hs))
  · exact lost.vacant slot ((station slot).trans hv)
  · rintro ⟨slot, st, hst, hs⟩
    exact lost.some ⟨slot, st, (station slot).trans hst, (silenced_iff st).1 hs⟩
  · exact lost.none fun slot st hst => eq_false_of_ne_true (mt (silenced_iff st).2 (h slot st (stations ▸ hst)))

/-! ## The expiries of the timers, and the Withhold suspension (R8, R48, R51, R53, R55) -/

theorem timerDue_of_le {limit e : Nat} {x : Timer} (hx : x = some e) (h : limit ≤ e) : timerDue limit x = true := by
  rw [hx]
  exact decide_eq_true h

theorem silenceTimerExpiry_of_due {slot e : Nat} {st : Station} (hst : s.station slot = some st) (htrack : st.state = .tracking)
    (ht : st.silence = some e) (hdue : st.silenceLimit * 1000000000 ≤ e) :
    exec (.silenceTimerExpiry slot) s =
      .next ((s.putStation slot { st with state := .silent, silence := none }).raise .stationSilent) := by
  have due : timerDue st.silenceNs st.silence = true := timerDue_of_le ht hdue
  change execSilenceTimerExpiry slot s = _
  simp [execSilenceTimerExpiry, hst, htrack, due]

theorem markTimerExpiry_of_due {e : Nat} (ht : s.ref.markTimer = some e) (hdue : 1500000000 ≤ e) :
    exec .markTimerExpiry s = .next (s.setRef s.ref.loseMarks) := by
  have due : timerDue Config.markTimeout s.ref.markTimer = true := timerDue_of_le ht hdue
  change execMarkTimerExpiry s = _
  rw [execMarkTimerExpiry, if_pos due]

theorem holdoverExpiry_of_due {e : Nat} (hstate : s.ref.state = .holdover) (ht : s.ref.holdoverTimer = some e)
    (hdue : s.ref.holdoverLimit * 1000000000 ≤ e) : s.holdoverExpiry =
      { (s.setRef { s.ref with state := .failed, holdoverTimer := none }).raise .refFailed with
        failureSignal := s.failureSignal || decide (s.plan.failureAction = .withhold ∧ (s.store = .ready ∨ s.store = .starved)) } := by
  have due : s.ref.state = .holdover ∧ timerDue s.ref.holdoverNs s.ref.holdoverTimer = true := ⟨hstate, timerDue_of_le ht hdue⟩
  rw [State.holdoverExpiry, if_pos due]
  have plan : ((s.setRef { s.ref with state := .failed, holdoverTimer := none }).raise .refFailed).plan = s.plan := by simp
  have store : ((s.setRef { s.ref with state := .failed, holdoverTimer := none }).raise .refFailed).store = s.store := by simp
  have signal : ((s.setRef { s.ref with state := .failed, holdoverTimer := none }).raise .refFailed).failureSignal =
    s.failureSignal := by simp
  generalize (s.setRef { s.ref with state := .failed, holdoverTimer := none }).raise .refFailed = u at plan store signal
  unfold State.signalFailure
  by_cases h : s.plan.failureAction = .withhold ∧ (s.store = .ready ∨ s.store = .starved)
  · have signals : u.plan.failureAction = .withhold ∧ (u.store = .ready ∨ u.store = .starved) := by rwa [plan, store]
    rw [if_pos signals, decide_eq_true h, Bool.or_true]
  · have silent : ¬ (u.plan.failureAction = .withhold ∧ (u.store = .ready ∨ u.store = .starved)) := by rwa [plan, store]
    rw [if_neg silent, decide_eq_false h, Bool.or_false, ← signal]

/-- Whether the agent must wait with an entry is what its directive says (R163). -/
theorem mustWait_of_directive {i : Instr} {d : Directive} (hd : directiveOf i = some d) {e : Entry} (hcode : e.code.toNat = d.code)
    (hlen : e.params.length = d.length) (s : State) : s.mustWait e = d.waits s e.params := by
  cases i <;> simp only [directiveOf, Option.some.injEq, reduceCtorEq] at hd <;> subst hd <;>
    simp [State.mustWait, hcode, hlen, commandOf, noWait]

/-- A directive that need not wait is taken as if the suspension had been taken first (R55). -/
theorem directive_withhold {i : Instr} {code length : Nat} {p : Progress} {e : Entry} {rest : List Entry}
    (hi : directiveCode i = some (code, length)) (h : Current s p e rest code length) (hwait : s.mustWait e = false) :
    exec i s = exec i s.withhold := by
  obtain ⟨d, hd, rfl, rfl⟩ := directiveOf_of_code hi
  have waits : d.waits s e.params = false := by rw [← mustWait_of_directive hd h.code h.length, hwait]
  rw [exec_directive hd, exec_directive hd]
  exact congrArg Host.Outcome.next (runDirective_withhold h waits (by rw [waits_withhold hd, waits]))

/-- A valid mark in Failed steps NT_now (R54). -/
theorem mark_valid_steps {r : RefClock} (h : r.state = .failed) (m : BitVec 32) : (r.mark (.valid m)).2 = true := by
  simp [RefClock.mark, h]

theorem closeTimeReached_withhold (s : State) : exec .closeTimeReached s = exec .closeTimeReached s.withhold ∨
    s.closeDueNow = false := by
  cases h : s.closeDueNow with
  | false => exact .inr rfl
  | true =>
    have due : s.withhold.closeDueNow = true := by simpa [State.closeDueNow] using h
    refine .inl ?_
    change execCloseTimeReached s = execCloseTimeReached s.withhold
    rw [execCloseTimeReached, execCloseTimeReached, if_pos h, if_pos due, withhold_withhold]

/-- Handing off the packet in hand leaves the signal to take effect later (R55). -/
theorem handOff_keeps_signal (hf : s.failureSignal = true) (hhand : s.inHand ≠ none) :
    ∃ u, exec .handOff s = .next u ∧ u.inHand = none ∧ u.failureSignal = true := by
  cases hp : s.inHand with
  | none => exact absurd hp hhand
  | some p =>
    change ∃ u, execHandOff s = .next u ∧ _
    by_cases hrun : s.store = .ready ∨ s.store = .starved
    · obtain ⟨_, _, _, _, _, _, _, only⟩ := placeSamples_placement p (s.handN p) p.samples p.globalSlot s
      have signal : (s.place p).failureSignal = true := by rw [State.place, only]; exact hf
      exact ⟨{ s.place p with inHand := none }, by simp [execHandOff, hp, hrun], rfl, signal⟩
    · exact ⟨_, by simp [execHandOff, hp, hrun]; rfl, rfl, by simpa using hf⟩

/-- Settles O6: each expiry is the one branch of its command that is due; what comes after the suspension is taken as if it had been
taken first. -/
theorem silenceAndReferenceTimers : Obligations.SilenceAndReferenceTimers := by
  refine ⟨fun s slot st e hst htrack ht hdue => silenceTimerExpiry_of_due hst htrack ht hdue,
    ⟨fun s e ht hdue => ?_, fun s e hstate ht hdue => congrArg Host.Outcome.next (holdoverExpiry_of_due hstate ht hdue),
      fun s hf => ⟨fun hrun => ?_, fun hrest => ?_⟩⟩, fun s t hf ht => ?_⟩
  · rw [markTimerExpiry_of_due ht hdue]
    exact ⟨fun hstate => by rw [RefClock.loseMarks, hstate], fun hstate => by rw [RefClock.loseMarks, hstate]⟩
  · exact congrArg Host.Outcome.next (withhold_of_running hf hrun)
  · have settled : s.withhold = { s with failureSignal := false } := by
      have notRun : ¬ (s.store = .ready ∨ s.store = .starved) := by rcases hrest with h | h <;> simp [h]
      rw [State.withhold, if_pos hf, if_neg notRun]
    exact congrArg Host.Outcome.next settled
  · obtain rfl : s.withhold = t := Host.Outcome.next.inj ht
    refine ⟨fun hfailed m => ?_, fun lo hlo hdue => ?_, fun i code length p e rest hi h hwait => directive_withhold hi h hwait,
      arbiterTake_not_free ?_, handOff_keeps_signal hf⟩
    · change execTimeMark (.valid m) s = execTimeMark (.valid m) s.withhold
      simp only [execTimeMark, State.withhold_ref, mark_valid_steps hfailed, if_true, withhold_withhold]
    · rcases closeTimeReached_withhold s with heq | hnot
      · exact heq
      · have due : s.closeDueNow = true := by
          rw [State.closeDueNow, hlo]
          exact decide_eq_true hdue
        rw [due] at hnot
        cases hnot
    · rw [← Bool.not_eq_true, pathFree_iff]
      rintro ⟨-, -, hsettled⟩
      rw [hf] at hsettled
      cases hsettled

/-! ## The lookup (R2) -/

theorem code_lt_of_index {m : List MapEntry} (hm : m.Pairwise (fun x y => x.code < y.code)) {j k : Nat} {x y : MapEntry}
    (hx : m[j]? = some x) (hy : m[k]? = some y) (h : j < k) : x.code < y.code := by
  obtain ⟨hj, rfl⟩ := List.getElem?_eq_some_iff.1 hx
  obtain ⟨hk, rfl⟩ := List.getElem?_eq_some_iff.1 hy
  exact List.pairwise_iff_getElem.1 hm j k hj hk h

/-- The search of the range from `lo` to below `hi` finds exactly the entries of that range. -/
theorem searchMap_iff {m : List MapEntry} (hm : m.Pairwise (fun x y => x.code < y.code)) (code slot : Nat) {k lo hi : Nat}
    (hhi : hi ≤ m.length) (hfuel : hi < lo + 2 ^ k) :
    searchMap m code k lo hi = some slot ↔ ∃ j x, lo ≤ j ∧ j < hi ∧ m[j]? = some x ∧ x.code = code ∧ x.slot = slot := by
  induction k generalizing lo hi with
  | zero =>
    refine iff_of_false nofun ?_
    rintro ⟨j, x, hlo, hlt, -⟩
    omega
  | succ k ih =>
    rw [Nat.pow_succ] at hfuel
    unfold searchMap
    split
    next hlt =>
      simp only
      generalize hmid : (lo + (hi - 1)) / 2 = mid
      have bounds : lo ≤ mid ∧ mid < hi := by omega
      obtain ⟨y, hy⟩ : ∃ y, m[mid]? = some y := ⟨_, List.getElem?_eq_getElem (bounds.2.trans_le hhi)⟩
      rw [hy]
      simp only
      split
      next hfound =>
        refine ⟨fun h => ⟨mid, y, bounds.1, bounds.2, hy, hfound, Option.some.inj h⟩, ?_⟩
        rintro ⟨j, x, -, -, hx, hcode, rfl⟩
        rcases Nat.lt_trichotomy j mid with hj | rfl | hj
        · exact absurd (code_lt_of_index hm hx hy hj) (by omega)
        · rw [hx] at hy
          rw [Option.some.inj hy]
        · exact absurd (code_lt_of_index hm hy hx hj) (by omega)
      next hne =>
        split
        next hbelow =>
          rw [ih hhi (by omega)]
          refine exists_congr fun j => exists_congr fun x => ⟨fun ⟨h1, h2, h3⟩ => ⟨by omega, h2, h3⟩, ?_⟩
          rintro ⟨-, hj, hx, hcode, hslot⟩
          refine ⟨Nat.succ_le_of_lt (Nat.lt_of_not_le fun hle => ?_), hj, hx, hcode, hslot⟩
          rcases Nat.lt_or_eq_of_le hle with hj | rfl
          · exact absurd (code_lt_of_index hm hx hy hj) (by omega)
          · rw [hx] at hy
            exact hne (Option.some.inj hy ▸ hcode)
        next habove =>
          rw [ih (by omega) (by omega)]
          refine exists_congr fun j => exists_congr fun x => ⟨fun ⟨h1, h2, h3⟩ => ⟨h1, by omega, h3⟩, ?_⟩
          rintro ⟨hj, -, hx, hcode, hslot⟩
          refine ⟨hj, Nat.lt_of_not_le fun hle => ?_, hx, hcode, hslot⟩
          rcases Nat.lt_or_eq_of_le hle with hj | rfl
          · exact absurd (code_lt_of_index hm hy hx hj) (by omega)
          · rw [hx] at hy
            exact hne (Option.some.inj hy ▸ hcode)
    next hge =>
      refine iff_of_false nofun ?_
      rintro ⟨j, x, hlo, hlt, -⟩
      omega

/-- Settles O7: eight comparisons search any range of fewer than 256 entries. -/
theorem lookupFindsMappedStation : Obligations.LookupFindsMappedStation := by
  intro m code slot hm hlen
  rw [lookupStation, searchMap_iff hm code slot le_rfl (by omega)]
  constructor
  · rintro ⟨j, x, -, -, hx, hcode, hslot⟩
    exact ⟨x, List.mem_of_getElem? hx, hcode, hslot⟩
  · rintro ⟨x, hx, hcode, hslot⟩
    obtain ⟨j, hj, rfl⟩ := List.getElem_of_mem hx
    exact ⟨j, _, Nat.zero_le j, hj, List.getElem?_eq_getElem hj, hcode, hslot⟩

/-! ## A packet taken (R112 to R116) -/

theorem lookup_of_mapped (h : MapInv s) {x : MapEntry} (hx : x ∈ s.map) : lookupStation s.map x.code = some x.slot :=
  (lookupFindsMappedStation s.map x.code x.slot h.ascending h.atMost).2 ⟨x, hx, rfl, rfl⟩

theorem lookup_of_unmapped (h : MapInv s) {code : Nat} (hcode : ∀ x ∈ s.map, x.code ≠ code) : lookupStation s.map code = none := by
  cases hl : lookupStation s.map code with
  | none => rfl
  | some slot =>
    obtain ⟨x, hx, heq, -⟩ := (lookupFindsMappedStation s.map code slot h.ascending h.atMost).1 hl
    exact absurd heq (hcode x hx)

theorem formatCheck_eq_some_iff {st : Station} {pk : StationPacket} {c : Fin 4} : formatCheck st pk = some c ↔ FormatOk st pk c := by
  constructor
  · intro h
    unfold formatCheck at h
    split at h
    next hlt =>
      simp only at h
      split at h
      next hok =>
        obtain ⟨rate, low, high, length⟩ := hok
        cases h
        exact ⟨rfl, rate, ⟨low, high⟩, length⟩
      next => cases h
    next => cases h
  · rintro ⟨hchannel, rate, ⟨low, high⟩, length⟩
    have hlt : pk.channel < 4 := hchannel ▸ c.isLt
    have hc : (⟨pk.channel, hlt⟩ : Fin 4) = c := Fin.ext hchannel
    rw [formatCheck, dif_pos hlt]
    simp only [hc]
    exact if_pos ⟨rate, low, high, length⟩

theorem take_map (s : State) (p : Port) : (s.take p).map = s.map := by simp [State.take]

theorem take_station (s : State) (p : Port) (slot : Nat) : (s.take p).station slot = s.station slot := by
  simp [State.take, State.station]

/-- A packet of a station that is mapped goes through the checks of that station. -/
theorem handlePacket_of_mapped (h : MapInv s) {p : Port} {bs : List Byte} {x : MapEntry} {st : Station} (hx : x ∈ s.map)
    (hcode : x.code = (readStationPacket bs).code) (hst : s.station x.slot = some st) :
    (s.take p).handlePacket p bs =
      if !st.mask.has p then (s.take p).putStation x.slot (st.count (fun c => { c with byRoute := bump c.byRoute }))
      else if st.state = .quarantined then
        (s.take p).putStation x.slot (st.count (fun c => { c with byQuarantine := bump c.byQuarantine }))
      else
        match formatCheck st (readStationPacket bs) with
        | none => (s.take p).putStation x.slot (st.count (fun c => { c with byFormat := bump c.byFormat }))
        | some c => (s.take p).filterPacket p x.slot st c (readStationPacket bs) := by
  have found : lookupStation (s.take p).map (readStationPacket bs).code = some x.slot := by
    rw [take_map, ← hcode]
    exact lookup_of_mapped h hx
  unfold State.handlePacket
  simp only [found, take_station, hst] <;> rfl

theorem exec_arbiterTake_of_takes {p : Port} {bs : List Byte} (h : TakesPacket s p bs) :
    exec .arbiterTake s = .next ((s.take p).handlePacket p bs) := arbiterTake_takes h

/-- The fields of a station packet (R180). -/
theorem readStationPacket_fields (bs : List Byte) :
    (readStationPacket bs).sequence.toNat = fieldAt bs 7 2 ∧
      (readStationPacket bs).payload = (bs.drop 16).take (bs.length - 18) := by
  refine ⟨?_, rfl⟩
  have bound := fieldAt_lt bs 7 2
  exact Nat.mod_eq_of_lt bound

/-- Settles O8: each check that fails is one branch of the handling. -/
theorem takeAndAcceptanceChecks : Obligations.TakeAndAcceptanceChecks := by
  refine ⟨fun bs => ?_, fun s p bs hmap htake => ?_⟩
  · obtain ⟨sequence, payload⟩ := readStationPacket_fields bs
    exact ⟨rfl, rfl, rfl, rfl, rfl, sequence, rfl, rfl, payload⟩
  · rw [exec_arbiterTake_of_takes htake]
    refine ⟨fun hnone => ?_, fun x hx hcode st hst => ⟨fun hroute => ?_, fun hroute hq => ?_, fun hroute hq hformat => ?_⟩⟩
    · have unknown : lookupStation (s.take p).map (readStationPacket bs).code = none := by
        rw [take_map]
        exact lookup_of_unmapped hmap hnone
      rw [State.handlePacket]
      simp only [unknown]
      rfl
    · rw [handlePacket_of_mapped hmap hx hcode hst, if_pos (by simp [hroute])]
      rfl
    · rw [handlePacket_of_mapped hmap hx hcode hst, if_neg (by simp [hroute]), if_pos hq]
      rfl
    · have fails : formatCheck st (readStationPacket bs) = none :=
        Option.eq_none_iff_forall_ne_some.2 fun c hc => hformat c (formatCheck_eq_some_iff.1 hc)
      rw [handlePacket_of_mapped hmap hx hcode hst, if_neg (by simp [hroute]), if_neg hq, fails]
      rfl

section
variable {p : Port} {slot : Nat} {st : Station} {c : Fin 4} {pk : StationPacket} {w : SeqWindow}

theorem filterPacket_of_duplicate (h : judge pk.restart (st.channels.get c).window pk.sequence = (.duplicate, w)) :
    s.filterPacket p slot st c pk = s.putStation slot { st with
      channels := st.channels.set c
        { st.channels.get c with window := some w, duplicates := bump (st.channels.get c).duplicates } } := by
  rw [State.filterPacket]
  simp only [h]

theorem filterPacket_of_stale (h : judge pk.restart (st.channels.get c).window pk.sequence = (.stale, w)) :
    s.filterPacket p slot st c pk = s.putStation slot { st with
      channels := st.channels.set c { st.channels.get c with window := some w, stale := bump (st.channels.get c).stale } } := by
  rw [State.filterPacket]
  simp only [h]

theorem filterPacket_of_accepted (h : judge pk.restart (st.channels.get c).window pk.sequence = (.accepted, w)) :
    let r := correctPacket (selectRecord st pk.time).1 (selectRecord st pk.time).2 (st.channels.get c) pk
    s.filterPacket p slot st c pk =
      { s.putStation slot (acceptStation { st with channels := st.channels.set c { st.channels.get c with window := some w } }) with
        inHand := some
          { port := p, slot := slot, channel := c, globalSlot := r.globalSlot, residual := r.residual, quality := r.quality,
            samples := r.samples } } := by
  rw [State.filterPacket]
  simp only [h]

end

/-- Settles O9: the filter's three results are the three branches of the packet's last stages. -/
theorem sequenceFilterOutcome : Obligations.SequenceFilterOutcome := by
  intro s p bs x st c hmap htake hx hcode hst hroute hq hformat pk s1 ch w
  have handled : exec .arbiterTake s = .next ((s.take p).filterPacket p x.slot st c pk) := by
    rw [exec_arbiterTake_of_takes htake, handlePacket_of_mapped hmap hx hcode hst, if_neg (by simp [hroute]), if_neg hq,
      formatCheck_eq_some_iff.2 hformat]
  rw [handled]
  exact ⟨fun hj => congrArg Host.Outcome.next (filterPacket_of_duplicate hj), fun hj => congrArg Host.Outcome.next (filterPacket_of_stale hj),
    fun hj => congrArg Host.Outcome.next (filterPacket_of_accepted hj)⟩

/-! ## The rows of the filter (R120, R122, R123) -/

/-- Settles O10: the rows of the filter in turn. -/
theorem sequenceFilterRows : Obligations.SequenceFilterRows := by
  intro q w first d a
  have first_eq : SeqWindow.first q = first := by
    have mark : (0x80000000 : BitVec 32) = BitVec.twoPow 32 31 := by decide
    rw [SeqWindow.first, mark]
  have mark : (0x80000000 : BitVec 32) = BitVec.twoPow 32 31 := by decide
  have distance : (q - w.high).toNat = d := toNat_sub_high w q
  have eighth : 8 ≤ w.staleRun + 1 ↔ ¬ w.staleRun + 1 < 8 := Nat.not_lt.symm
  refine ⟨fun restart => ?_, ?_, ?_⟩
  · cases restart <;> exact congrArg (Prod.mk _) first_eq
  · exact congrArg (Prod.mk _) first_eq
  · change judgePresent w q = _
    simp only [judgePresent, judgeStale, distance, mark, first_eq, eighth, ite_not]
    rfl

end Sys2Proof.Machine
end

section
/-! The Correction Unit's record selection and flags (R36, R67), the hand-off (R89, R117), and what becomes of each sample (R87, R90,
R91, R96). -/

namespace Sys2Proof.Machine

variable {s t u : State}

/-! ## The record and the flags (R36, R67) -/

theorem isExtrapolated_iff_natAbs (c : Correction) (time : Nat) :
    isExtrapolated c time = true ↔ c.span * 1000000 < ((time : Int) - (c.refTime : Int)).natAbs := by
  rw [isExtrapolated_iff]
  simp only [spanUs, elapsedUs]
  omega

/-- Settles O16: the selection is one test, and each flag of the set is raised by its own condition. -/
theorem recordSelectionAndFlags : Obligations.RecordSelectionAndFlags := by
  refine ⟨fun st time p sw hp hsw => ?_, fun st time hp => ?_, fun c isPrevious ch pk => ?_⟩
  · simp only [selectRecord, hp, hsw]
  · simp only [selectRecord, hp]
  · intro q raw
    have bit := getLsbD_quality_correctPacket c isPrevious ch pk
    refine ⟨?_, ?_, ?_, ?_, ?_, ?_⟩
    case refine_4 => exact (extrapolated_correctPacket c isPrevious ch pk).symm ▸ isExtrapolated_iff_natAbs c pk.time
    case refine_5 => simpa [absentMark] using clamped_correctPacket_iff c isPrevious ch pk
    all_goals
      rw [bit]
      simp [Quality.previous, Quality.uncorrected, Quality.stationUnlocked, Quality.extrapolated, Quality.clamped]

/-! ## The hand-off (R89, R117) -/

theorem modifyStation_of_station {slot : Nat} {st : Station} (h : s.station slot = some st) (f : Station → Station) :
    s.modifyStation slot f = s.putStation slot (f st) := by
  rw [State.modifyStation, h]

theorem exec_handOff_of_running {p : InHand} (hp : s.inHand = some p) (hrun : s.Running) :
    exec .handOff s = .next { s.place p with inHand := none } := by
  change execHandOff s = _
  simp only [execHandOff, hp]
  rcases hrun with h | h <;> simp [h]

theorem exec_handOff_of_refused {p : InHand} (hp : s.inHand = some p) (hrefused : s.store = .idle ∨ s.store = .suspended) :
    exec .handOff s = .next { s.modifyStation p.slot (·.count (fun c =>
      { c with storeNotReady := bump c.storeNotReady p.samples.length })) with inHand := none } := by
  change execHandOff s = _
  simp only [execHandOff, hp]
  rcases hrefused with h | h <;> simp [h]

/-- Settles O17: the hand-off is taken or refused by the store state, and places the samples one at a time. -/
theorem handOffRefusedOrPlaced : Obligations.HandOffRefusedOrPlaced := by
  refine ⟨fun s p hp => ⟨exec_handOff_of_running hp, fun hrefused st hst => ?_⟩, fun _ _ _ _ => rfl, fun _ _ _ _ _ _ => rfl⟩
  rw [exec_handOff_of_refused hp hrefused, modifyStation_of_station hst]
  rfl

/-! ## The samples that are dropped (R87, R90, R96) -/

section
variable {p : InHand} {n gs lo : Nat} {v : Sample}

theorem openRecord_none {e : Nat} (h : ∀ j r, (j, r) ∈ s.records → ¬ (r.state = .opened ∧ r.number = e)) :
    openRecord s.records e = none :=
  List.find?_eq_none.2 fun q hq => by simpa [EpochRecord.inState] using h q.1 q.2 hq

theorem placeSample_of_late (hlo : s.eLo = some lo) (h : gs / n < lo) :
    s.placeSample p n gs v = s.modifyStation p.slot (·.count (fun c => { c with late := bump c.late })) := by
  simp [State.placeSample, hlo, h]

theorem placeSample_of_future (hlo : s.eLo = some lo) (hdepth : 1 ≤ s.plan.windowDepth)
    (h : lo + s.plan.windowDepth - 1 < gs / n) :
    s.placeSample p n gs v = s.modifyStation p.slot (·.count (fun c => { c with future := bump c.future })) := by
  have notLate : ¬ gs / n < lo := by omega
  simp [State.placeSample, hlo, notLate, h]

theorem placeSample_of_noRecord (hlo : s.eLo = some lo) (hge : lo ≤ gs / n) (hle : gs / n ≤ lo + s.plan.windowDepth - 1)
    (h : openRecord s.records (gs / n) = none) :
    s.placeSample p n gs v = s.modifyStation p.slot (·.count (fun c => { c with noRecord := bump c.noRecord })) := by
  have notLate : ¬ gs / n < lo := by omega
  have notFuture : ¬ lo + s.plan.windowDepth - 1 < gs / n := by omega
  simp [State.placeSample, hlo, notLate, notFuture, h]

end

section
variable {p : InHand} {j k : Nat} {r : EpochRecord} {v : Sample}

theorem placeInRecord_of_starved (hnone : assocGet (r.segment p.slot p.channel).pages (k / 64) = none) (h : s.store = .starved) :
    s.placeInRecord j r p k v = s.modifyStation p.slot (·.count (fun c => { c with noPage := bump c.noPage })) := by
  simp [State.placeInRecord, hnone, h]

theorem placeInRecord_of_noPageLeft (hnone : assocGet (r.segment p.slot p.channel).pages (k / 64) = none) (h : s.store = .ready)
    (hfree : s.freePages = []) :
    s.placeInRecord j r p k v =
      s.enterStarved.modifyStation p.slot (·.count (fun c => { c with noPage := bump c.noPage })) := by
  simp [State.placeInRecord, hnone, h, hfree]

theorem placeInRecord_of_filled (hpage : assocGet (r.segment p.slot p.channel).pages (k / 64) ≠ none)
    (hset : (r.segment p.slot p.channel).filled.getLsbD k = true) :
    s.placeInRecord j r p k v =
      (s.markOverlap j p).modifyStation p.slot (·.count (fun c => { c with overlap := bump c.overlap })) := by
  obtain ⟨page, hpage⟩ := Option.ne_none_iff_exists'.1 hpage
  simp [State.placeInRecord, hpage, hset]

end

theorem markOverlap_of_present {p : InHand} {j : Nat} {r : EpochRecord} (hr : assocGet s.records j = some r) :
    s.markOverlap j p = { s with
      records := assocPut s.records j (r.putSegment p.slot p.channel
        { r.segment p.slot p.channel with quality := (r.segment p.slot p.channel).quality ||| Quality.overlap }) } := by
  rw [State.markOverlap, State.modifyRecord, hr]

/-- Settles O18: the rows of the judgement in turn. -/
theorem droppedSamplesAreCounted : Obligations.DroppedSamplesAreCounted := by
  intro s p n gs lo v st hlo hdepth hst e k counted
  refine ⟨fun h => ?_, fun h => ?_, fun hge hle h => ?_, fun hge hle j r hopen => ⟨fun hnone h => ?_, fun hnone h hfree => ?_,
    fun hpage hset hr => ?_⟩⟩
  · rw [placeSample_of_late hlo h, modifyStation_of_station hst]
    rfl
  · rw [placeSample_of_future hlo hdepth h, modifyStation_of_station hst]
    rfl
  · rw [placeSample_of_noRecord hlo hge hle (openRecord_none h), modifyStation_of_station hst]
    rfl
  · rw [placeSample_of_open hlo hge hle hopen, placeInRecord_of_starved hnone h, modifyStation_of_station hst]
    rfl
  · have present : s.enterStarved.station p.slot = some st := by simpa [State.enterStarved, State.station] using hst
    rw [placeSample_of_open hlo hge hle hopen, placeInRecord_of_noPageLeft hnone h hfree, modifyStation_of_station present]
    rfl
  · rw [placeSample_of_open hlo hge hle hopen, placeInRecord_of_filled hpage hset, markOverlap_of_present hr]
    exact modifyStation_of_station (by exact hst) _

/-! ## The sample memory (R91) -/

theorem markOverlap_memory (s : State) (j : Nat) (p : InHand) : (s.markOverlap j p).memory = s.memory := by
  unfold State.markOverlap State.modifyRecord
  split <;> rfl

theorem writeSample_memory (s : State) (j k : Nat) (p : InHand) (page : PageNo) (v : Sample) :
    (s.writeSample j p k page v).memory = s.memory ∨
      (s.writeSample j p k page v).memory = writeWord s.memory (wordAddress page (k % 64)) v := by
  unfold State.writeSample
  split
  · exact .inr rfl
  · exact .inl rfl

theorem takePage_memory (s : State) : s.takePage.memory = s.memory := by
  obtain ⟨_, _, only, -⟩ := takePage_only s
  rw [only]

/-- A sample judged in a record leaves the sample memory, or writes the one word of a clear slot that has its page. -/
theorem placeInRecord_memory (s : State) (j k : Nat) (r : EpochRecord) (p : InHand) (v : Sample) :
    (s.placeInRecord j r p k v).memory = s.memory ∨ ∃ page, s.HasPage (r.segment p.slot p.channel) k page ∧
      (r.segment p.slot p.channel).filled.getLsbD k = false ∧
      (s.placeInRecord j r p k v).memory = writeWord s.memory (wordAddress page (k % 64)) v := by
  unfold State.placeInRecord
  simp only
  split
  next page hpage =>
    split
    next hset => exact .inl (by simp [markOverlap_memory])
    next hclear =>
      exact (writeSample_memory s j k p page v).imp_right fun h => ⟨page, .inl hpage, eq_false_of_ne_true hclear, h⟩
  next page rest hpage hready hfree =>
    split
    next hset => exact .inl (by simp [markOverlap_memory])
    next hclear =>
      have written := writeSample_memory s.takePage j k p page v
      rw [takePage_memory] at written
      exact written.imp_right fun h => ⟨page, .inr ⟨hpage, hready, by rw [hfree]; rfl⟩, eq_false_of_ne_true hclear, h⟩
  · exact .inl (by simp [State.enterStarved])
  · exact .inl (by simp)

theorem sampleAddress_of_judged {p : InHand} {n gs j : Nat} {r : EpochRecord} {page : PageNo}
    (within : ¬ (gs / n < s.eLo.getD 0 ∨ s.eLo.getD 0 + s.plan.windowDepth - 1 < gs / n))
    (hopen : openRecord s.records (gs / n) = some (j, r)) (hclear : (r.segment p.slot p.channel).filled.getLsbD (gs % n) = false)
    (hpage : s.HasPage (r.segment p.slot p.channel) (gs % n) page) :
    s.sampleAddress p n gs = some (wordAddress page (gs % n % 64)) := by
  rcases hpage with hentry | ⟨hentry, hready, hhead⟩
  · simp [State.sampleAddress, within, hopen, hclear, hentry]
  · obtain ⟨rest, hfree⟩ := List.head?_eq_some_iff.1 hhead
    simp [State.sampleAddress, within, hopen, hclear, hentry, hready, hfree]

/-- A sample judged leaves every byte outside the word of its address. -/
theorem readByte_placeSample {p : InHand} {n gs a : Nat} (v : Sample)
    (h : ∀ w, s.sampleAddress p n gs = some w → ¬ (w ≤ a ∧ a < w + 4)) :
    readByte (s.placeSample p n gs v).memory a = readByte s.memory a := by
  unfold State.placeSample
  simp only
  split
  · simp
  · split
    · simp
    next notLate notFuture =>
      split
      · simp
      next j r hopen =>
        rcases placeInRecord_memory s j (gs % n) r p v with heq | ⟨page, hpage, hclear, heq⟩
        · rw [heq]
        · have within : ¬ (gs / n < s.eLo.getD 0 ∨ s.eLo.getD 0 + s.plan.windowDepth - 1 < gs / n) := not_or.2 ⟨notLate, notFuture⟩
          have away := h _ (sampleAddress_of_judged within hopen hclear hpage)
          rw [heq, readByte_writeWord_outside _ _ _ _ (by omega)]

theorem readByte_placeSamples {p : InHand} {n a : Nat} (vs : List Sample) (gs : Nat) (s : State)
    (h : ∀ w ∈ storeAddresses p n gs vs s, ¬ (w ≤ a ∧ a < w + 4)) :
    readByte (placeSamples p n gs vs s).memory a = readByte s.memory a := by
  induction vs generalizing gs s with
  | nil => rfl
  | cons v vs ih =>
    simp only [storeAddresses, List.mem_append, Option.mem_toList] at h
    rw [placeSamples, ih _ _ fun w hw => h w (.inr hw), readByte_placeSample v fun w hw => h w (.inl hw)]

/-- Settles O20: each sample of a packet that is placed writes the one word at its address. -/
theorem handOffStoresOnlyPlacedSamples : Obligations.HandOffStoresOnlyPlacedSamples := by
  intro s t a ht h
  rcases handOff_cases ht with rfl | ⟨p, hp, ⟨hrun, rfl⟩ | ⟨-, rfl⟩⟩
  · rfl
  · exact readByte_placeSamples p.samples p.globalSlot s (h p hp hrun)
  · simp

end Sys2Proof.Machine
end

section
/-! Steps that are not possible (logs 1, 9, 12), and the directives SET-REFERENCE, SET-LINKS (R44, R110), QUARANTINE and UNQUARANTINE
(R11, R12). -/

namespace Sys2Proof.Machine

variable {s t u : State}

/-! ## Steps that are not possible -/

/-- A timer below its limit is not due. -/
theorem timerDue_of_lt {limit : Nat} {x : Timer} (h : ∀ n, x = some n → n < limit) : timerDue limit x = false := by
  cases x with
  | none => rfl
  | some n => exact decide_eq_false (Nat.not_le.2 (h n rfl))

theorem takePort_of_empty (ha : s.portA.fifo = []) (hb : s.portB.fifo = []) : s.takePort = none := by
  have empty (p : Port) : (s.trunk p).fifo = [] := by cases p <;> assumption
  simp [State.takePort, empty]

theorem arbiterTake_impossible
    (h : s.inHand ≠ none ∨ s.agent.isHeld = true ∨ s.failureSignal = true ∨ s.portA.fifo = [] ∧ s.portB.fifo = []) :
    exec .arbiterTake s = .next s := by
  by_cases hfree : s.pathFree = true
  · obtain ⟨hhand, hheld, hsettled⟩ := (pathFree_iff s).1 hfree
    have empty : s.portA.fifo = [] ∧ s.portB.fifo = [] := by simpa [hhand, hheld, hsettled] using h
    change execArbiterTake s = _
    simp [execArbiterTake, takePort_of_empty empty.1 empty.2]
  · exact arbiterTake_not_free (eq_false_of_ne_true hfree)

theorem trunkExpiry_of_lt {p : Port} (h : ∀ n, (s.trunk p).timer = some n → n < s.linkLossTime * 1000000) : s.trunkExpiry p = s := by
  have notDue : timerDue s.linkLossNs (s.trunk p).timer = false := timerDue_of_lt h
  simp [State.trunkExpiry, notDue]

theorem chainLinkExpiry_of_lt (h : ∀ n, s.chain.timer = some n → n < s.linkLossTime * 1000000) : s.chainLinkExpiry = s := by
  have notDue : timerDue (s.linkLossTime * nsPerMs) s.chain.timer = false := timerDue_of_lt h
  simp [State.chainLinkExpiry, notDue]

theorem stallTimerExpiry_of_lt (h : ∀ n, s.stallTimer = some n → n < s.stallLimit * 1000000000) : s.stallTimerExpiry = s := by
  have notDue : timerDue s.stallNs s.stallTimer = false := timerDue_of_lt h
  simp [State.stallTimerExpiry, notDue]

theorem markTimerExpiry_of_lt (h : ∀ n, s.ref.markTimer = some n → n < 1500000000) : exec .markTimerExpiry s = .next s := by
  have notDue : timerDue Config.markTimeout s.ref.markTimer = false := timerDue_of_lt h
  change execMarkTimerExpiry s = _
  simp [execMarkTimerExpiry, notDue]

theorem holdoverExpiry_of_not_due
    (h : ¬ (s.ref.state = .holdover ∧ ∃ n, s.ref.holdoverTimer = some n ∧ s.ref.holdoverLimit * 1000000000 ≤ n)) :
    s.holdoverExpiry = s := by
  refine if_neg fun ⟨hstate, hdue⟩ => ?_
  have notDue : timerDue s.ref.holdoverNs s.ref.holdoverTimer = false :=
    timerDue_of_lt fun n hn => Nat.lt_of_not_le fun hle => h ⟨hstate, n, hn, hle⟩
  rw [notDue] at hdue
  cases hdue

theorem silenceTimerExpiry_of_lt {slot : Nat} {st : Station} (hst : s.station slot = some st)
    (h : ∀ n, st.silence = some n → n < st.silenceLimit * 1000000000) : exec (.silenceTimerExpiry slot) s = .next s := by
  have notDue : timerDue st.silenceNs st.silence = false := timerDue_of_lt h
  change execSilenceTimerExpiry slot s = _
  simp [execSilenceTimerExpiry, hst, notDue]

theorem closeTimeReached_of_lt
    (h : ∀ lo, s.eLo = some lo → s.ref.ntNow < (lo + 1) * (s.plan.epochLength * 1000000) + s.plan.hold * 1000000) :
    exec .closeTimeReached s = .next s := by
  have notDue : s.closeDueNow = false := by
    unfold State.closeDueNow
    split
    next lo hlo => exact decide_eq_false (Nat.not_le.2 (h lo hlo))
    · rfl
  change execCloseTimeReached s = _
  simp [execCloseTimeReached, notDue]

theorem sendingFrom_of_none (h : s.transmitting = none) (src : TxSource) : s.sendingFrom src = false := by
  rw [State.sendingFrom, h]

theorem completion_of_none (h : s.transmitting = none) : exec .fragmentCompletion s = .next s ∧ exec .answerCompletion s = .next s ∧
    exec .passThroughCompletion s = .next s ∧ exec .noticeCompletion s = .next s := by
  have idle := sendingFrom_of_none h
  refine ⟨?_, ?_, ?_, ?_⟩
  · exact congrArg Host.Outcome.next (if_neg (by simp [idle]))
  · exact congrArg Host.Outcome.next (if_neg (by simp [idle]))
  · exact congrArg Host.Outcome.next (if_neg (by simp [idle]))
  · exact congrArg Host.Outcome.next (if_neg (by simp [idle]))

theorem beginPacket_of_empty (hin : s.inbound = []) (hp : s.agent.progress = none) : exec .beginPacket s = .next s := by
  change execBeginPacket s = _
  simp only [execBeginPacket, hin, hp]

theorem directive_of_noProgress {i : Instr} {code length : Nat} (hp : s.agent.progress = none)
    (hi : directiveCode i = some (code, length)) : exec i s = .next s := by
  obtain ⟨d, hd, -⟩ := directiveOf_of_code hi
  rw [exec_directive hd, Directive.run, runDirective, hp]

/-- Settles O51: each command's rule in a state that it does not name. -/
theorem impossibleStepsChangeNothing : Obligations.ImpossibleStepsChangeNothing := by
  intro s
  refine ⟨arbiterTake_impossible, fun h => ?_, fun p h => ?_, fun p h => congrArg Host.Outcome.next (trunkExpiry_of_lt h),
    fun h => congrArg Host.Outcome.next (chainLinkExpiry_of_lt h), fun h => congrArg Host.Outcome.next (stallTimerExpiry_of_lt h),
    markTimerExpiry_of_lt, fun h => congrArg Host.Outcome.next (holdoverExpiry_of_not_due ?_),
    fun slot st hst h => silenceTimerExpiry_of_lt hst h, fun h => congrArg Host.Outcome.next (withhold_of_settled h),
    closeTimeReached_of_lt, fun h => ?_, completion_of_none, beginPacket_of_empty,
    fun hp i code length hi => directive_of_noProgress hp hi⟩
  · change execHandOff s = _
    simp only [execHandOff, h]
  · exact congrArg Host.Outcome.next (if_neg (by simp [h]))
  · rintro ⟨-, n, hn, hle⟩
    exact Nat.not_le.2 (h n hn) hle
  · change execForwardComplete s = _
    simp only [execForwardComplete, h]

/-! ## SET-REFERENCE and SET-LINKS (R44, R53, R110, R148) -/

theorem exec_setReference (s : State) : exec .setReference s = .next (runDirective 0x03 6 noWait setReferenceRule s) := rfl

theorem exec_setLinks (s : State) : exec .setLinks s = .next (runDirective 0x04 3 noWait setLinksRule s) := rfl

/-- Settles O42: in range the settings are taken, and then the expiries whose timers have run their new limits. -/
theorem setReferenceAndSetLinks : Obligations.SetReferenceAndSetLinks := by
  intro s p e rest
  constructor
  · intro h wl limit inRange s1 expired
    have taken (hin : inRange) : exec .setReference s = .next (s1.holdoverExpiry.finishEntry p e rest .done []) :=
      exec_of_rule (exec_setReference s) h (if_pos hin)
    refine ⟨fun hout => exec_of_rule (exec_setReference s) h (if_neg hout), fun hin hrun => ?_, fun hin hdue => ?_⟩
    · rw [taken hin, holdoverExpiry_of_not_due (by exact hrun)]
    · obtain ⟨hstate, n, hn, hle⟩ := hdue
      refine ⟨s1.holdoverExpiry, rfl, ?_, taken hin⟩
      rw [holdoverExpiry_of_due (s := s1) hstate hn hle]
      simp
  · intro h loss stall inRange s1 runs
    have taken (hin : inRange) : exec .setLinks s =
        .next ((((s1.trunkExpiry .a).trunkExpiry .b).chainLinkExpiry.stallTimerExpiry).finishEntry p e rest .done []) :=
      exec_of_rule (exec_setLinks s) h (if_pos hin)
    refine ⟨fun hout => exec_of_rule (exec_setLinks s) h (if_neg hout), fun hin ha hb hc hs => ?_,
      fun hin => ⟨_, _, _, _, rfl, rfl, rfl, rfl, taken hin⟩⟩
    rw [taken hin, trunkExpiry_of_lt (s := s1) (p := .a) ha, trunkExpiry_of_lt (s := s1) (p := .b) hb,
      chainLinkExpiry_of_lt (s := s1) hc, stallTimerExpiry_of_lt (s := s1) hs]

/-! ## QUARANTINE and UNQUARANTINE (R11, R12) -/

section
variable {p : Progress} {e : Entry} {rest : List Entry} {r : DirResult} {ps : List Byte} {st : Station}

theorem exec_quarantine_of_rule (h : Takes s p e rest 0x0B 1) (hw : ∀ q, s.inHand = some q → q.slot ≠ fieldAt e.params 0 1)
    (hr : quarantineRule s e.params = r) : exec .quarantine s = .next (r.state.finishEntry p e rest r.outcome r.data) :=
  congrArg Host.Outcome.next (runDirective_of_stationRule h hw hr)

theorem exec_unquarantine_of_rule (h : Takes s p e rest 0x0C 1) (hw : ∀ q, s.inHand = some q → q.slot ≠ fieldAt e.params 0 1)
    (hr : unquarantineRule s e.params = r) : exec .unquarantine s = .next (r.state.finishEntry p e rest r.outcome r.data) :=
  congrArg Host.Outcome.next (runDirective_of_stationRule h hw hr)

theorem quarantineRule_of_outOfRange (s : State) (h : 191 < fieldAt ps 0 1) : quarantineRule s ps = .leave s .refusedRange := if_pos h

theorem unquarantineRule_of_outOfRange (s : State) (h : 191 < fieldAt ps 0 1) : unquarantineRule s ps = .leave s .refusedRange :=
  if_pos h

theorem quarantineRule_of_vacant (h : fieldAt ps 0 1 ≤ 191) (hv : s.station (fieldAt ps 0 1) = none) :
    quarantineRule s ps = .leave s .refusedTarget := by
  simp [quarantineRule, Nat.not_lt.2 h, hv]

theorem unquarantineRule_of_vacant (h : fieldAt ps 0 1 ≤ 191) (hv : s.station (fieldAt ps 0 1) = none) :
    unquarantineRule s ps = .leave s .refusedTarget := by
  simp [unquarantineRule, Nat.not_lt.2 h, hv]

theorem quarantineRule_of_mapped (h : fieldAt ps 0 1 ≤ 191) (hst : s.station (fieldAt ps 0 1) = some st) :
    quarantineRule s ps = if st.state = .quarantined then .leave s .noEffect
      else .done (s.putStation (fieldAt ps 0 1) { st with state := .quarantined, silence := none }) := by
  simp [quarantineRule, Nat.not_lt.2 h, hst]

theorem unquarantineRule_of_mapped (h : fieldAt ps 0 1 ≤ 191) (hst : s.station (fieldAt ps 0 1) = some st) :
    unquarantineRule s ps = if st.state = .quarantined then
        .done (s.putStation (fieldAt ps 0 1)
          { st with state := .configured, silence := none, channels := st.channels.mapAll (fun ch => { ch with window := none }) })
      else .leave s .noEffect := by
  simp [unquarantineRule, Nat.not_lt.2 h, hst]

end

/-- Settles O46: each check is one branch of the directive's rule. -/
theorem quarantineAndRelease : Obligations.QuarantineAndRelease := by
  rintro s p e rest i code (⟨rfl, rfl⟩ | ⟨rfl, rfl⟩) h hw slot
  · refine ⟨fun hout => exec_quarantine_of_rule h hw (quarantineRule_of_outOfRange s hout),
      fun hin hv => exec_quarantine_of_rule h hw (quarantineRule_of_vacant hin hv),
      fun hin st hst => ⟨fun _ hq => ?_, fun _ hq => ?_, nofun, nofun⟩⟩
    · exact exec_quarantine_of_rule h hw ((quarantineRule_of_mapped hin hst).trans (if_pos hq))
    · exact exec_quarantine_of_rule h hw ((quarantineRule_of_mapped hin hst).trans (if_neg hq))
  · refine ⟨fun hout => exec_unquarantine_of_rule h hw (unquarantineRule_of_outOfRange s hout),
      fun hin hv => exec_unquarantine_of_rule h hw (unquarantineRule_of_vacant hin hv),
      fun hin st hst => ⟨nofun, nofun, fun _ hq => ?_, fun _ hq =>
        ⟨st.channels.mapAll (fun ch => { ch with window := none }), get_mapAll _ st.channels, ?_⟩⟩⟩
    · exact exec_unquarantine_of_rule h hw ((unquarantineRule_of_mapped hin hst).trans (if_neg hq))
    · exact exec_unquarantine_of_rule h hw ((unquarantineRule_of_mapped hin hst).trans (if_pos hq))

/-! ## HOLD, RELEASE and the completions (R147, R149, R157, R158, R176) -/

theorem sendingFrom_of_source {f : TxFrame} (h : s.transmitting = some f) : s.sendingFrom f.source = true := by
  rw [State.sendingFrom, h]
  exact decide_eq_true rfl

/-- Settles O32: HOLD and RELEASE turn on the hold, a completion on the source of the frame in transmission. -/
theorem holdReleaseAndCompletions : Obligations.HoldReleaseAndCompletions := by
  refine ⟨fun s => ⟨fun h => ⟨congrArg Host.Outcome.next (if_pos h), congrArg Host.Outcome.next (if_neg (by simp [h]))⟩,
      fun h => ⟨congrArg Host.Outcome.next (if_neg (by simp [h])), congrArg Host.Outcome.next (if_pos h)⟩⟩,
    fun s f hf => ?_⟩
  have sending := sendingFrom_of_source hf
  refine ⟨fun hsrc => ?_, fun hsrc => ?_, fun hsrc => ?_⟩
  · exact congrArg Host.Outcome.next (if_pos (hsrc ▸ sending))
  · exact congrArg Host.Outcome.next (if_pos (hsrc ▸ sending))
  · exact congrArg Host.Outcome.next (if_pos (hsrc ▸ sending))

end Sys2Proof.Machine
end

section
/-! The choice of the Egress Arbiter at a frame boundary, and what each grant does (R129, R138, R149, R150, R176). -/

namespace Sys2Proof.Machine

variable {s t u : State}

/-! ## The choice (R149, R150) -/

theorem exec_grant_of_choice {src : TxSource} (hhold : s.hold = .notHeld) (hidle : s.transmitting = none)
    (h : s.chooseSource = some src) : exec .grant s = .next (s.grantSource src) := by
  change execGrant s = _
  simp [execGrant, State.canGrant, hhold, hidle, h]

theorem exec_grant_of_noChoice (h : s.chooseSource = none) : exec .grant s = .next s := by
  change execGrant s = _
  simp [execGrant, h]

theorem exec_grant_of_blocked (h : s.hold = .held ∨ s.transmitting ≠ none) : exec .grant s = .next s := by
  have blocked : s.canGrant = false := by
    rw [← Bool.not_eq_true]
    simpa [State.canGrant, imp_iff_not_or] using h.imp_left fun hheld => by simp [hheld]
  change execGrant s = _
  simp [execGrant, blocked]

/-- Whether the Emitter offers a fragment (R129, R138). -/
theorem ownWaiting_iff (s : State) :
    s.ownWaiting = true ↔ s.emitter = .idle ∧ s.closedQueue ≠ [] ∨ ∃ e, s.emitter = .building e := by
  cases h : s.emitter <;> simp [State.ownWaiting, h]

theorem chooseSource_of_answer (h : s.answerQueue ≠ []) : s.chooseSource = some .answer := if_pos h

theorem chooseSource_of_notice {cause : FlagSet} (ha : s.answerQueue = []) (h : s.noticeSlot = some cause) :
    s.chooseSource = some .notice := by
  simp [State.chooseSource, ha, h]

section
variable (ha : s.answerQueue = []) (hn : s.noticeSlot = none)
include ha hn

theorem chooseSource_of_passThrough {f : List Byte} {q : List (List Byte)} (hf : s.chain.buffer = f :: q)
    (h : s.ownWaiting = false ∨ s.nextData = .passThrough) : s.chooseSource = some .passThrough := by
  simp only [State.chooseSource, ha, hn, hf]
  rcases h with h | h
  · simp [h]
  · cases s.ownWaiting <;> simp [h]

theorem chooseSource_of_own (hown : s.ownWaiting = true) (h : s.chain.buffer = [] ∨ s.nextData = .own) :
    s.chooseSource = some .own := by
  simp only [State.chooseSource, ha, hn, hown]
  rcases h with h | h
  · simp [h]
  · cases s.chain.buffer <;> simp [h]

theorem chooseSource_of_none (hf : s.chain.buffer = []) (hown : s.ownWaiting = false) : s.chooseSource = none := by
  simp [State.chooseSource, ha, hn, hf, hown]

end

/-! ## The grants -/

theorem grantOwn_of_idle {j : Nat} {rest : List Nat} {r : EpochRecord} (he : s.emitter = .idle) (hq : s.closedQueue = j :: rest)
    (hr : assocGet s.records j = some r) :
    let e : Emission := { record := j, plan := r.fragmentPlan, next := 0 }
    s.grantOwn =
      { s with
        records := assocPut s.records j { r with state := .emitting }
        closedQueue := rest
        emitter := .sending e .goesOn
        transmitting := some { source := .own, bytes := epochFrame s.unitAddress s.memory r e } } := by
  simp only [State.grantOwn, he, hq, hr]

theorem grantOwn_of_building {e : Emission} {r : EpochRecord} (he : s.emitter = .building e)
    (hr : assocGet s.records e.record = some r) :
    s.grantOwn = { s with
      emitter := .sending e .goesOn
      transmitting := some { source := .own, bytes := epochFrame s.unitAddress s.memory r e } } := by
  simp only [State.grantOwn, he, hr]

/-- A notice packet as the model forms it is the statement's run of bytes. -/
theorem noticePacket_eq (s : State) (cause : FlagSet) :
    noticePacket s cause = withCheck ([0x55, 0, 8] ++ beBytes 1 s.unitAddress.toNat ++ beBytes 2 cause.toNat
      ++ beBytes 2 s.flags.toNat ++ beBytes 1 s.ref.state.toCode ++ beBytes 1 s.store.toCode ++ [0, 0]) := rfl

/-- Settles O34: the sources in their priority, each chosen under its own condition, with the one grant of each. -/
theorem grantFollowsPriority : Obligations.GrantFollowsPriority := by
  intro s
  refine ⟨exec_grant_of_blocked, ?_⟩
  intro hhold hidle own
  have waiting : s.ownWaiting = true ↔ own := ownWaiting_iff s
  refine ⟨fun a q hq => ?_, fun ha cause hn => ?_, fun ha hn f q hf hturn => ?_,
    fun ha hn hturn => ⟨fun j rest r he hq hr => ?_, fun e r he hr => ?_⟩, fun ha hn hf hown => ?_⟩
  · rw [exec_grant_of_choice hhold hidle (chooseSource_of_answer (by simp [hq])), State.grantSource, hq]
  · rw [exec_grant_of_choice hhold hidle (chooseSource_of_notice ha hn), State.grantSource, hn]
    simp only [noticePacket_eq]
  · have turn : s.ownWaiting = false ∨ s.nextData = .passThrough :=
      hturn.imp_left fun hown => eq_false_of_ne_true (mt waiting.1 hown)
    rw [exec_grant_of_choice hhold hidle (chooseSource_of_passThrough ha hn hf turn), State.grantSource, hf]
  · have offered : s.ownWaiting = true := waiting.2 (.inl ⟨he, by simp [hq]⟩)
    rw [exec_grant_of_choice hhold hidle (chooseSource_of_own ha hn offered hturn), State.grantSource, grantOwn_of_idle he hq hr]
  · have offered : s.ownWaiting = true := waiting.2 (.inr ⟨e, he⟩)
    rw [exec_grant_of_choice hhold hidle (chooseSource_of_own ha hn offered hturn), State.grantSource, grantOwn_of_building he hr]
  · exact exec_grant_of_noChoice (chooseSource_of_none ha hn hf (eq_false_of_ne_true (mt waiting.1 hown)))

end Sys2Proof.Machine
end

section
/-! Check fields (R71, R72, R73), the routing of directive packets and the packet as it is forwarded (R152, R153, R154, R160, R182). -/

namespace Sys2Proof.Machine

variable {s t u : State}

/-! ## Ones'-complement sums (R71) -/

theorem onesAdd_lt {a w : Nat} (ha : a < 65536) (hw : w < 65536) : onesAdd a w < 65536 := by
  unfold onesAdd
  split <;> omega

/-- Each carry is added back. -/
theorem onesAdd_eq {a w : Nat} (ha : a < 65536) (hw : w < 65536) : onesAdd a w = (a + w) % 65536 + (a + w) / 65536 := by
  unfold onesAdd
  split <;> omega

theorem onesAdd_mod (a w : Nat) : onesAdd a w % 65535 = (a + w) % 65535 := by
  unfold onesAdd
  split <;> omega

theorem onesAdd_complement {a : Nat} (ha : a < 65536) : onesAdd a (65535 - a) = 65535 := by
  rw [onesAdd, if_pos (by omega)]
  omega

theorem word_lt (x y : Byte) : x.toNat * 256 + y.toNat < 65536 := by
  have hx := x.isLt
  have hy := y.isLt
  omega

theorem checkSum_lt (bs : List Byte) {total : Nat} (h : total < 65536) : checkSum total bs < 65536 := by
  fun_induction checkSum total bs with
  | case1 => exact h
  | case2 total x => exact onesAdd_lt h (by have := x.isLt; omega)
  | case3 total x y rest ih => exact ih (onesAdd_lt h (word_lt x y))

/-- The sum of the 16-bit words of a run, an odd last byte padded with 0, without carries: what the check sum is modulo 65535. -/
def wordSum : List Byte → Nat
  | [] => 0
  | [x] => x.toNat * 256
  | x :: y :: rest => x.toNat * 256 + y.toNat + wordSum rest

theorem checkSum_mod (bs : List Byte) (total : Nat) : checkSum total bs % 65535 = (total + wordSum bs) % 65535 := by
  fun_induction checkSum total bs with
  | case1 => simp [wordSum]
  | case2 total x => simpa [wordSum] using onesAdd_mod total (x.toNat * 256)
  | case3 total x y rest ih =>
    have word := onesAdd_mod total (x.toNat * 256 + y.toNat)
    rw [ih, wordSum]
    omega

/-- What one byte weighs in the sum: that of a word's first byte or of its second. -/
theorem wordSum_set (bs : List Byte) {i : Nat} {old : Byte} (h : bs[i]? = some old) (b : Byte) :
    ∃ c, (c = 256 ∨ c = 1) ∧ wordSum (bs.set i b) + old.toNat * c = wordSum bs + b.toNat * c := by
  fun_induction wordSum bs generalizing i with
  | case1 => simp at h
  | case2 x =>
    obtain ⟨rfl, rfl⟩ : i = 0 ∧ x = old := by
      cases i <;> simp_all
    exact ⟨256, .inl rfl, by simp [wordSum]; omega⟩
  | case3 x y rest ih =>
    match i with
    | 0 =>
      obtain rfl : x = old := by simpa using h
      exact ⟨256, .inl rfl, by simp [wordSum]; omega⟩
    | 1 =>
      obtain rfl : y = old := by simpa using h
      exact ⟨1, .inr rfl, by simp [wordSum]; omega⟩
    | i + 2 =>
      obtain ⟨c, hc, heq⟩ := ih (i := i) (by simpa using h)
      exact ⟨c, hc, by simp [wordSum]; omega⟩

/-- A byte changed changes the sum modulo 65535. -/
theorem wordSum_set_mod_ne {bs : List Byte} {i : Nat} {b old : Byte} (h : bs[i]? = some old) (hne : b ≠ old) :
    wordSum (bs.set i b) % 65535 ≠ wordSum bs % 65535 := by
  obtain ⟨c, hc, heq⟩ := wordSum_set bs h b
  have differ : b.toNat ≠ old.toNat := fun h => hne (BitVec.eq_of_toNat_eq h)
  have hb := b.isLt
  have hold := old.isLt
  rcases hc with rfl | rfl <;> omega

/-! ## The check field (R71, R72, R73) -/

theorem length_withCheck (body : List Byte) : (withCheck body).length = body.length + 2 := by simp [withCheck]

theorem take_withCheck (body : List Byte) : (withCheck body).take body.length = body := by simp [withCheck]

theorem drop_withCheck (body : List Byte) : (withCheck body).drop body.length = beBytes 2 (65535 - checkSum 0 body) := by
  simp [withCheck]

theorem checkPasses_withCheck (body : List Byte) : checkPasses (withCheck body) = true := by
  have least : (withCheck body).length - 2 = body.length := by rw [length_withCheck, Nat.add_sub_cancel]
  have field : beNat (beBytes 2 (65535 - checkSum 0 body)) = 65535 - checkSum 0 body := beNat_beBytes_of_lt (by omega)
  rw [checkPasses, least, take_withCheck, drop_withCheck, field]
  exact decide_eq_true (onesAdd_complement (checkSum_lt body (by decide)))

theorem wordSum_pair (bs : List Byte) (h : bs.length = 2) : wordSum bs = beNat bs := by
  obtain ⟨x, y, rfl⟩ := List.length_eq_two.1 h
  simp [wordSum, beNat]

/-- No passing arrival is shorter than its check field. -/
theorem two_le_of_checkPasses {bs : List Byte} (h : checkPasses bs = true) : 2 ≤ bs.length := by
  by_contra hshort
  have none : bs.length - 2 = 0 := by omega
  have small := beNat_lt bs
  have within : 256 ^ bs.length ≤ 256 ^ 1 := Nat.pow_le_pow_right (by decide) (by omega)
  simp only [checkPasses, none, List.take_zero, checkSum, List.drop_zero, onesAdd, decide_eq_true_iff] at h
  split at h <;> omega

theorem wordSum_of_checkPasses {bs : List Byte} (h : checkPasses bs = true) :
    (wordSum (bs.take (bs.length - 2)) + wordSum (bs.drop (bs.length - 2))) % 65535 = 0 := by
  have long := two_le_of_checkPasses h
  have sum := checkSum_mod (bs.take (bs.length - 2)) 0
  rw [wordSum_pair (bs.drop (bs.length - 2)) (by simp; omega)]
  have total := congrArg (· % 65535) (of_decide_eq_true h)
  simp only [onesAdd_mod] at total
  omega

/-- Damage to one byte is found (R72). -/
theorem checkPasses_set {bs : List Byte} {i : Nat} {b old : Byte} (h : checkPasses bs = true) (hold : bs[i]? = some old)
    (hne : b ≠ old) : checkPasses (bs.set i b) = false := by
  refine eq_false_of_ne_true fun hpass => ?_
  have sound := wordSum_of_checkPasses h
  have damaged := wordSum_of_checkPasses hpass
  rw [List.length_set, List.take_set, List.drop_set] at damaged
  by_cases hi : i < bs.length - 2
  · rw [if_pos hi] at damaged
    have changed := wordSum_set_mod_ne (bs := bs.take (bs.length - 2)) (by rw [List.getElem?_take_of_lt hi, hold]) hne
    omega
  · rw [if_neg hi, List.set_eq_of_length_le (by simp; omega)] at damaged
    have inField : (bs.drop (bs.length - 2))[i - (bs.length - 2)]? = some old := by
      rw [List.getElem?_drop, Nat.add_sub_cancel' (Nat.not_lt.1 hi), hold]
    have changed := wordSum_set_mod_ne inField hne
    omega

/-- Settles O35: the check sum modulo 65535 is a plain sum, in which every byte weighs 1 or 256. -/
theorem checkFieldsDetectDamage : Obligations.CheckFieldsDetectDamage := by
  refine ⟨⟨fun _ => rfl, fun _ _ => rfl, fun _ _ _ _ => rfl, fun total word ht hw => ⟨onesAdd_eq ht hw, onesAdd_lt ht hw⟩,
      fun body => ?_, fun arrival _ => ?_⟩,
    fun body => ⟨checkPasses_withCheck body, length_withCheck body, take_withCheck body⟩,
    fun arrival i b old h hold hne => checkPasses_set h hold hne⟩
  · rw [withCheck, fieldAt_append_of_le le_rfl, Nat.sub_self, fieldAt_whole (length_beBytes _ _), beNat_beBytes_of_lt (by omega)]
  · exact checkPasses_iff arrival

/-! ## The packet as it is forwarded (R73, R154, R182) -/

/-- The bytes that a forwarded packet has before its check field. -/
def forwardBody (bs : List Byte) : List Byte :=
  (bs.take (bs.length - 2)).take 4 ++ beBytes 1 (hopCountOf bs - 1) ++ (bs.take (bs.length - 2)).drop 5

theorem forwardImage_eq (bs : List Byte) : forwardImage bs = withCheck (forwardBody bs) := rfl

theorem length_forwardBody {bs : List Byte} (h : 12 ≤ bs.length) : (forwardBody bs).length = bs.length - 2 := by
  simp [forwardBody]
  omega

theorem forwardBody_hopCount {bs : List Byte} (h : 12 ≤ bs.length) : fieldAt (forwardBody bs) 4 1 = fieldAt bs 4 1 % 16 - 1 := by
  have small : fieldAt bs 4 1 % 16 - 1 < 256 ^ 1 := by omega
  have front : ((bs.take (bs.length - 2)).take 4).length = 4 := by simp; omega
  rw [forwardBody, List.append_assoc, fieldAt_append_of_le (by omega), front, fieldAt_head (length_beBytes _ _), hopCountOf,
    beNat_beBytes_of_lt small]

theorem getElem?_forwardBody {bs : List Byte} (h : 12 ≤ bs.length) {i : Nat} (hi : i + 2 < bs.length) (hne : i ≠ 4) :
    (forwardBody bs)[i]? = bs[i]? := by
  have front : ((bs.take (bs.length - 2)).take 4).length = 4 := by simp; omega
  rw [forwardBody, List.append_assoc]
  rcases Nat.lt_or_ge i 4 with hlt | hge
  · rw [List.getElem?_append_left (by omega), List.getElem?_take_of_lt hlt, List.getElem?_take_of_lt (by omega)]
  · rw [List.getElem?_append_right (by omega), front, List.getElem?_append_right (by simp; omega), length_beBytes,
      List.getElem?_drop, List.getElem?_take_of_lt (by omega)]
    congr 1
    omega

/-- Settles O31: the bytes before the new check field are those of the packet but for the hop count. -/
theorem forwardedPacket : Obligations.ForwardedPacket := by
  refine ⟨fun s x hx => ?_, fun bs h => ⟨?_, checkPasses_withCheck _, ?_, fun i hi hne => ?_⟩⟩
  · change execForwardComplete s = _
    simp only [execForwardComplete, hx]
  · rw [forwardImage_eq, length_withCheck, length_forwardBody h]
    omega
  · rw [forwardImage_eq, withCheck, fieldAt_append_of_within (by rw [length_forwardBody h]; omega), forwardBody_hopCount h]
  · rw [forwardImage_eq, withCheck, List.getElem?_append_left (by rw [length_forwardBody h]; omega), getElem?_forwardBody h hi hne]

/-! ## The routing of directive packets (R152, R153, R154, R160) -/

theorem intakeOk_iff (bs : List Byte) : intakeOk bs = true ↔
    12 ≤ bs.length ∧ bs.length ≤ 512 ∧ fieldAt bs 0 1 = 0x53 ∧ fieldAt bs 1 2 = bs.length - 12 ∧
      onesAdd (checkSum 0 (bs.take (bs.length - 2))) (fieldAt bs (bs.length - 2) 2) = 0xFFFF := by
  simp only [intakeOk, Bool.and_eq_true, decide_eq_true_iff, and_assoc]
  rw [typeOf_eq_some_iff (by decide), lengthField, checkPasses_iff]

theorem executesHere_iff (s : State) (bs : List Byte) :
    s.executesHere bs = true ↔ destinationOf bs = s.unitAddress.toNat ∨ destinationOf bs = 31 := by
  simp only [State.executesHere, Bool.or_eq_true, decide_eq_true_iff]

theorem offerForward_of_room {c : ChainPort} {bs : List Byte} (hup : c.link = .up) (hroom : c.forwardQueue.length < 2) :
    c.offerForward bs = { c with
      forwardQueue := c.forwardQueue ++ [bs]
      outgoing := if c.outgoing = none then (c.forwardQueue ++ [bs]).head?.map forwardImage else c.outgoing } := by
  rw [ChainPort.offerForward, if_pos ⟨hup, hroom⟩]
  cases hout : c.outgoing <;> simp

theorem offerForward_of_noRoom {c : ChainPort} {bs : List Byte} (h : ¬ (c.link = .up ∧ c.forwardQueue.length < 2)) :
    c.offerForward bs = { c with forwardDrops := bump c.forwardDrops } := if_neg h

section
variable {bs : List Byte}

theorem routeForward_of_own (h : destinationOf bs = s.unitAddress.toNat) : s.routeForward bs = s.chain := if_pos h

theorem routeForward_of_hop (h : destinationOf bs ≠ s.unitAddress.toNat) (hhop : 1 ≤ hopCountOf bs) :
    s.routeForward bs = s.chain.offerForward bs := (if_neg h).trans (if_pos hhop)

theorem routeForward_of_broadcast (h : destinationOf bs ≠ s.unitAddress.toNat) (hhop : ¬ 1 ≤ hopCountOf bs)
    (hbroad : destinationOf bs = 31) : s.routeForward bs = s.chain := (if_neg h).trans ((if_neg hhop).trans (if_pos hbroad))

theorem routeForward_of_spent (h : destinationOf bs ≠ s.unitAddress.toNat) (hhop : ¬ 1 ≤ hopCountOf bs)
    (hbroad : destinationOf bs ≠ 31) : s.routeForward bs = s.chain.countForwardDrop :=
  (if_neg h).trans ((if_neg hhop).trans (if_neg hbroad))

end

theorem routeForward_eq (s : State) (bs : List Byte) : s.routeForward bs =
    if destinationOf bs ≠ s.unitAddress.toNat ∧ 1 ≤ hopCountOf bs ∧ s.chain.link = .up ∧ s.chain.forwardQueue.length < 2 then
      { s.chain with
        forwardQueue := s.chain.forwardQueue ++ [bs]
        outgoing := if s.chain.outgoing = none then (s.chain.forwardQueue ++ [bs]).head?.map forwardImage else s.chain.outgoing }
    else if destinationOf bs ≠ s.unitAddress.toNat ∧ (1 ≤ hopCountOf bs ∨ destinationOf bs ≠ 31) then
      { s.chain with forwardDrops := bump s.chain.forwardDrops }
    else s.chain := by
  by_cases hdest : destinationOf bs = s.unitAddress.toNat
  · rw [routeForward_of_own hdest, if_neg fun h => h.1 hdest, if_neg fun h => h.1 hdest]
  · by_cases hhop : 1 ≤ hopCountOf bs
    · rw [routeForward_of_hop hdest hhop]
      by_cases hroom : s.chain.link = .up ∧ s.chain.forwardQueue.length < 2
      · exact (offerForward_of_room hroom.1 hroom.2).trans (if_pos ⟨hdest, hhop, hroom⟩).symm
      · rw [offerForward_of_noRoom hroom, if_neg fun h => hroom h.2.2, if_pos ⟨hdest, .inl hhop⟩]
    · by_cases hbroad : destinationOf bs = 31
      · rw [routeForward_of_broadcast hdest hhop hbroad, if_neg fun h => hhop h.2.1,
          if_neg fun h => h.2.elim hhop fun hne => hne hbroad]
      · rw [routeForward_of_spent hdest hhop hbroad, if_neg fun h => hhop h.2.1, if_pos ⟨hdest, .inr hbroad⟩,
          ChainPort.countForwardDrop]

theorem exec_directivePacketArrival_of_unsound {bs : List Byte} (h : intakeOk bs = false) : exec (.directivePacketArrival bs) s =
    .next { s with globals := { s.globals with receiveErrors := bump s.globals.receiveErrors } } := by
  change execDirectivePacketArrival bs s = _
  simp [execDirectivePacketArrival, h]

theorem exec_directivePacketArrival_of_elsewhere {bs : List Byte} (h : intakeOk bs = true) (hnot : s.executesHere bs = false) :
    exec (.directivePacketArrival bs) s = .next { s with chain := s.routeForward bs } := by
  change execDirectivePacketArrival bs s = _
  simp [execDirectivePacketArrival, h, hnot]

theorem exec_directivePacketArrival_of_here {bs : List Byte} (h : intakeOk bs = true) (hhere : s.executesHere bs = true) :
    exec (.directivePacketArrival bs) s = .next (({ s with chain := s.routeForward bs } : State).offerInbound bs) := by
  change execDirectivePacketArrival bs s = _
  simp [execDirectivePacketArrival, h, hhere]

/-- Settles O30: the forward offer is `routeForward`, the inbound offer has room or not. -/
theorem directivePacketRouting : Obligations.DirectivePacketRouting := by
  intro bs s sound dest hop unit queue s1
  have routed : { s with chain := s.routeForward bs } = s1 := congrArg (fun c => { s with chain := c }) (routeForward_eq s bs)
  have taken (h : sound) (hhere : dest = unit ∨ dest = 31) : exec (.directivePacketArrival bs) s = .next (s1.offerInbound bs) := by
    rw [exec_directivePacketArrival_of_here ((intakeOk_iff bs).2 h) ((executesHere_iff s bs).2 hhere), routed]
  refine ⟨fun h => ?_, fun h hne hbroad => ?_, fun h hhere hroom => ?_, fun h hhere hfull => ?_⟩
  · exact exec_directivePacketArrival_of_unsound (eq_false_of_ne_true (mt (intakeOk_iff bs).1 h))
  · have elsewhere := eq_false_of_ne_true (mt (executesHere_iff s bs).1 (not_or.2 ⟨hne, hbroad⟩))
    rw [exec_directivePacketArrival_of_elsewhere ((intakeOk_iff bs).2 h) elsewhere, routed]
  · rw [taken h hhere]
    exact congrArg Host.Outcome.next (if_pos hroom)
  · rw [taken h hhere]
    exact congrArg Host.Outcome.next (if_neg (Nat.not_lt.2 hfull))

end Sys2Proof.Machine
end

section
/-! The Management Agent: the beginning of a packet and its structure (R161, R162), the entries of an answer (R163 to R166), and the
directives that wait for a packet in hand (R13, R38, R118). -/

namespace Sys2Proof.Machine

variable {s t u : State}

/-! ## The structure of a packet (R162) -/

/-- The bytes of a run of entries. -/
def encodeEntries (es : List Entry) : List Byte := es.flatMap (fun e => e.code :: BitVec.ofNat 8 e.params.length :: e.params)

theorem encodeEntries_cons (e : Entry) (es : List Entry) :
    encodeEntries (e :: es) = e.code :: BitVec.ofNat 8 e.params.length :: (e.params ++ encodeEntries es) := rfl

/-- The entries of a payload are those whose bytes it is, each of a length that its length byte holds. -/
theorem readEntries_iff {k : Nat} {bs : List Byte} (hk : bs.length ≤ k) (es : List Entry) :
    readEntries k bs = some es ↔ bs = encodeEntries es ∧ ∀ e ∈ es, e.params.length < 256 := by
  fun_induction readEntries k bs generalizing es with
  | case1 =>
    cases es with
    | nil => simp [encodeEntries]
    | cons e es => simp [encodeEntries_cons]
  | case2 x rest => simp at hk
  | case3 k x =>
    cases es with
    | nil => simp [encodeEntries]
    | cons e es => simp [encodeEntries_cons]
  | case4 k code len rest hlen ih =>
    have room : (rest.drop len.toNat).length ≤ k := by
      simp only [List.length_cons] at hk
      simp only [List.length_drop]
      omega
    rw [Option.map_eq_some_iff]
    constructor
    · rintro ⟨es', hes', rfl⟩
      obtain ⟨hrest, hfit⟩ := (ih room es').1 hes'
      have taken : (rest.take len.toNat).length = len.toNat := List.length_take_of_le hlen
      refine ⟨?_, List.forall_mem_cons.2 ⟨taken.symm ▸ len.isLt, hfit⟩⟩
      rw [encodeEntries_cons, ← hrest, taken, List.take_append_drop, BitVec.ofNat_toNat, BitVec.setWidth_eq]
    · rintro ⟨hbs, hfit⟩
      cases es with
      | nil => simp [encodeEntries] at hbs
      | cons e es =>
        obtain ⟨he, hfit⟩ := List.forall_mem_cons.1 hfit
        simp only [encodeEntries_cons, List.cons.injEq] at hbs
        obtain ⟨rfl, rfl, rfl⟩ := hbs
        have length : (BitVec.ofNat 8 e.params.length).toNat = e.params.length := by
          rw [BitVec.toNat_ofNat, Nat.mod_eq_of_lt he]
        rw [length] at room ih ⊢
        rw [List.drop_left, List.take_left] at *
        exact ⟨es, (ih room es).2 ⟨rfl, hfit⟩, rfl⟩
  | case5 k code len rest hlen =>
    refine iff_of_false nofun ?_
    rintro ⟨hbs, hfit⟩
    cases es with
    | nil => simp [encodeEntries] at hbs
    | cons e es =>
      obtain ⟨he, -⟩ := List.forall_mem_cons.1 hfit
      simp only [encodeEntries_cons, List.cons.injEq] at hbs
      obtain ⟨-, rfl, rfl⟩ := hbs
      simp [Nat.mod_eq_of_lt he] at hlen

theorem soundEntries_iff (packet : List Byte) (es : List Entry) : soundEntries packet = some es ↔
    payloadOf 10 packet = encodeEntries es ∧ (∀ e ∈ es, e.params.length < 256) ∧ es.length = fieldAt packet 7 1 ∧
      fieldAt packet 7 1 ≤ 16 := by
  have read := readEntries_iff (le_refl (payloadOf 10 packet).length)
  unfold soundEntries
  simp only
  split
  next es' hes' =>
    obtain ⟨hpayload, hfit⟩ := (read es').1 hes'
    constructor
    · intro h
      obtain ⟨⟨hmost, hcount⟩, heq⟩ := Option.ite_none_right_eq_some.1 h
      obtain rfl := Option.some.inj heq
      exact ⟨hpayload, hfit, hcount, hmost⟩
    · rintro ⟨hes, hsmall, hcount, hmost⟩
      obtain rfl : es' = es := Option.some.inj (hes'.symm.trans ((read es).2 ⟨hes, hsmall⟩))
      exact if_pos ⟨hmost, hcount⟩
  next hnone =>
    refine iff_of_false nofun fun ⟨hes, hsmall, _⟩ => ?_
    rw [(read es).2 ⟨hes, hsmall⟩] at hnone
    cases hnone

/-! ## The beginning of a packet (R161) -/

section
variable {packet : List Byte} {more : List (List Byte)} (hp : s.agent.progress = none) (hin : s.inbound = packet :: more)
include hp hin

theorem beginPacket_of_full (h : 4 ≤ s.answerQueue.length) : exec .beginPacket s = .next { s with agent := .waiting } := by
  change execBeginPacket s = _
  simp [execBeginPacket, hp, hin, Config.answerDepth, Nat.not_lt.2 h]

theorem beginPacket_of_malformed (h : s.answerQueue.length < 4) (hes : soundEntries packet = none) : exec .beginPacket s =
    .next (({ s with globals := { s.globals with malformedPackets := bump s.globals.malformedPackets } } : State).placeAnswer
      (answerPacket s.unitAddress (tagOf packet) 1 [])) := by
  change execBeginPacket s = _
  simp [execBeginPacket, hp, hin, Config.answerDepth, h, hes]

theorem beginPacket_of_empty_packet (h : s.answerQueue.length < 4) (hes : soundEntries packet = some []) :
    exec .beginPacket s = .next (s.placeAnswer (answerPacket s.unitAddress (tagOf packet) 0 [])) := by
  change execBeginPacket s = _
  simp [execBeginPacket, hp, hin, Config.answerDepth, h, hes]

theorem beginPacket_of_entries {e : Entry} {es : List Entry} (h : s.answerQueue.length < 4)
    (hes : soundEntries packet = some (e :: es)) : exec .beginPacket s =
      .next { s with
        agent := .executing { todo := e :: es, formed := [], tag := tagOf packet, stopOnRefusal := stopOnRefusalOf packet } } := by
  change execBeginPacket s = _
  simp [execBeginPacket, hp, hin, Config.answerDepth, h, hes]

end

/-- Settles O36: the beginning turns on the room for the answer and on the structure, which `encodeEntries` spells. -/
theorem packetBeginsWhenAnswerHasRoom : Obligations.PacketBeginsWhenAnswerHasRoom :=
  ⟨fun _ _ _ hp hin => ⟨beginPacket_of_full hp hin, fun hroom => ⟨beginPacket_of_malformed hp hin hroom,
    beginPacket_of_empty_packet hp hin hroom, fun _ _ => beginPacket_of_entries hp hin hroom⟩⟩, soundEntries_iff⟩

/-! ## Entries and answers (R163 to R166) -/

theorem stops_iff (o : DirOutcome) : o.stops = true ↔ o ≠ .done ∧ o ≠ .noEffect ∧ o ≠ .notRun := by cases o <;> simp [DirOutcome.stops]

section
variable {p : Progress} {e : Entry} {rest : List Entry} {o : DirOutcome}

theorem finishEntry_of_stop (h : p.stopOnRefusal = true) (ho : o.stops = true) (data : List Byte) :
    s.finishEntry p e rest o data = s.placeAnswer (answerPacket s.unitAddress p.tag 0
      (p.formed ++ [outcomeEntry e.code o data] ++ rest.map (fun x => outcomeEntry x.code .notRun []))) := by
  simp [State.finishEntry, h, ho]

theorem finishEntry_of_last (h : ¬ (p.stopOnRefusal = true ∧ o.stops = true)) (hrest : rest = []) (data : List Byte) :
    s.finishEntry p e rest o data =
      s.placeAnswer (answerPacket s.unitAddress p.tag 0 (p.formed ++ [outcomeEntry e.code o data])) := by
  simp [State.finishEntry, h, hrest]

theorem finishEntry_of_more (h : ¬ (p.stopOnRefusal = true ∧ o.stops = true)) (hrest : rest ≠ []) (data : List Byte) :
    s.finishEntry p e rest o data =
      { s with agent := .executing { p with todo := rest, formed := p.formed ++ [outcomeEntry e.code o data] } } := by
  simp [State.finishEntry, h, hrest]

end

theorem placeAnswer_eq (s : State) (answer : List Byte) : s.placeAnswer answer =
    { s with
      answerQueue := s.answerQueue ++ [answer]
      inbound := s.inbound.tail
      agent := if s.inbound.tail ≠ [] ∧ 4 ≤ s.answerQueue.length + 1 then .waiting else .idle } := by
  simp [State.placeAnswer, Config.answerDepth]

/-- A code outside the table names no directive (R163). -/
theorem commandOf_outside {code : Nat} (h : code = 0 ∨ 0x17 < code) : commandOf code = .unknown := by
  unfold commandOf
  split
  case h_24 => rfl
  all_goals omega

/-- Settles O37: the forming of an entry by its three branches, and the outcomes UNKNOWN and MALFORMED. -/
theorem entriesAndAnswers : Obligations.EntriesAndAnswers := by
  refine ⟨rfl, fun s p e rest o data => ?_, placeAnswer_eq, fun _ _ _ _ => rfl, fun s p e rest hp ht hcode => ?_,
    fun s p e rest i code length hi hp ht hcode hlen => ?_⟩
  · intro formed refusal
    refine ⟨fun hstop href => ?_, fun hgo hrest => ?_, fun hgo hrest => ?_⟩
    · exact finishEntry_of_stop hstop ((stops_iff o).2 href) data
    · exact finishEntry_of_last (by rwa [stops_iff]) hrest data
    · exact finishEntry_of_more (by rwa [stops_iff]) hrest data
  · change execUnknown s = _
    simp only [execUnknown, hp, ht, commandOf_outside hcode, if_true]
  · obtain ⟨d, hd, rfl, rfl⟩ := directiveOf_of_code hi
    rw [exec_directive hd]
    exact congrArg Host.Outcome.next (runDirective_malformed hp ht hcode hlen)

/-! ## Directives that wait (R13, R38, R118, R163) -/

theorem mem_stepIf_iff {c : Bool} {i j : Instr} : i ∈ stepIf c j ↔ c = true ∧ i = j := by cases c <;> simp [stepIf]

/-- The steps that need no time, each under its own condition. -/
theorem mem_promptSteps_iff {i : Instr} : i ∈ s.promptSteps ↔ (s.pathFree && s.takePort.isSome) = true ∧ i = .arbiterTake ∨
    s.inHand.isSome = true ∧ i = .handOff ∨ s.failureSignal = true ∧ i = .withholdSuspension ∨
      (s.canGrant && s.chooseSource.isSome) = true ∧ i = .grant ∨ i ∈ s.agentStep := by
  simp only [State.promptSteps, List.mem_append, mem_stepIf_iff, or_assoc]

/-- A step that running time brings is no directive and no take. -/
theorem timedSteps_expiry {q : Instr × Nat} (h : q ∈ s.timedSteps) : directiveCode q.1 = none ∧ q.1 ≠ .arbiterTake := by
  have expiry {j : Instr} {limit : Nat} {x : Timer} (h : q ∈ timed j limit x)
      (hj : directiveCode j = none ∧ j ≠ .arbiterTake) : directiveCode q.1 = none ∧ q.1 ≠ .arbiterTake := by
    cases x <;> simp [timed] at h
    exact h ▸ hj
  simp only [State.timedSteps, List.mem_append, List.mem_flatMap, or_assoc] at h
  rcases h with h | h | h | h | h | h | h | ⟨x, -, h⟩
  case inr.inr.inr.inr.inr.inr.inl =>
    cases hlo : s.eLo <;> simp [hlo] at h
    exact h ▸ ⟨rfl, nofun⟩
  all_goals exact expiry h ⟨rfl, nofun⟩

theorem mem_agentStep_of_directive {i : Instr} {x : Nat × Nat} (hi : directiveCode i = some x) (h : i ∈ s.ownSteps) :
    i ∈ s.agentStep := by
  rw [State.ownSteps, List.mem_append, mem_promptSteps_iff] at h
  rcases h with (⟨-, rfl⟩ | ⟨-, rfl⟩ | ⟨-, rfl⟩ | ⟨-, rfl⟩ | h) | h
  case inl.inr.inr.inr.inr => exact h
  case inr =>
    obtain ⟨q, hq, rfl⟩ := List.mem_map.1 h
    rw [(timedSteps_expiry (List.mem_filter.1 hq).1).1] at hi
    cases hi
  all_goals cases hi

theorem commandOf_ne_arbiterTake (code : Nat) : commandOf code ≠ .arbiterTake := by
  unfold commandOf
  split <;> nofun

theorem arbiterTake_not_mem_agentStep (s : State) : .arbiterTake ∉ s.agentStep := by
  unfold State.agentStep
  split
  · simp [Option.map_eq_some_iff, commandOf_ne_arbiterTake]
  · simp [Option.map_eq_some_iff, commandOf_ne_arbiterTake]
  all_goals split <;> simp

theorem arbiterTake_not_mem_ownSteps (h : s.pathFree = false) : .arbiterTake ∉ s.ownSteps := fun hmem => by
  rw [State.ownSteps, List.mem_append, mem_promptSteps_iff, h] at hmem
  rcases hmem with hmem | hmem
  · simp [arbiterTake_not_mem_agentStep] at hmem
  · obtain ⟨q, hq, heq⟩ := List.mem_map.1 hmem
    exact (timedSteps_expiry (List.mem_filter.1 hq).1).2 heq

theorem mem_ownSteps_of_prompt {i : Instr} (h : i ∈ s.promptSteps) : i ∈ s.ownSteps := List.mem_append_left _ h

/-- A Held agent whose entry must wait has no step. -/
theorem agentStep_of_mustWait {p : Progress} {e : Entry} {rest : List Entry} (ha : s.agent = .held p) (ht : p.todo = e :: rest)
    (h : s.mustWait e = true) : s.agentStep = [] := by
  simp [State.agentStep, ha, ht, h]

/-- A directive that must wait leaves the agent Held and is no step of the part's own. -/
theorem directive_waits {i : Instr} {d : Directive} {p : Progress} {e : Entry} {rest : List Entry} (hd : directiveOf i = some d)
    (h : Current s p e rest d.code d.length) (hw : d.waits s e.params = true) :
    exec i s = .next { s with agent := .held p } ∧ i ∉ ({ s with agent := .held p } : State).ownSteps := by
  refine ⟨by rw [exec_directive hd]; exact congrArg Host.Outcome.next (runDirective_waits h hw), fun hmem => ?_⟩
  have listed : directiveCode i = some (d.code, d.length) := by rw [directiveCode_eq, hd]; rfl
  have must : ({ s with agent := .held p } : State).mustWait e = true := by
    rw [← hw, ← mustWait_of_directive hd h.code h.length s]
    rfl
  have step := mem_agentStep_of_directive listed hmem
  rw [agentStep_of_mustWait rfl h.todo must] at step
  cases step

theorem waits_of_station {i : Instr} {d : Directive}
    (hi : i ∈ [.unmapStation, .setChannel, .stageCorrection, .commitCorrection, .discardStaged, .quarantine, .unquarantine])
    (hd : directiveOf i = some d) : d.waits = waitsForStation := by
  simp only [List.mem_cons, List.not_mem_nil, or_false] at hi
  rcases hi with rfl | rfl | rfl | rfl | rfl | rfl | rfl <;> exact Option.some.inj hd ▸ rfl

/-- The hand-off of a packet leaves the agent as it was. -/
theorem handOff_keeps_agent {h : InHand} (hh : s.inHand = some h) :
    ∃ t, exec .handOff s = .next t ∧ t.inHand = none ∧ t.agent = s.agent := by
  by_cases hrun : s.Running
  · obtain ⟨_, _, _, _, _, _, _, only⟩ := placeSamples_placement h (s.handN h) h.samples h.globalSlot s
    have agent : (s.place h).agent = s.agent := by rw [State.place, only]
    exact ⟨_, exec_handOff_of_running hh hrun, rfl, agent⟩
  · have refused : s.store = .idle ∨ s.store = .suspended := by
      cases hs : s.store <;> simp [State.Running, hs] at hrun ⊢
    exact ⟨_, exec_handOff_of_refused hh refused, rfl, by simp⟩

/-- Settles O38: a directive's `waits` decides whether it is held and whether it is a step; a Held agent blocks the arbiter. -/
theorem heldDirectivesWait : Obligations.HeldDirectivesWait := by
  refine ⟨fun s p e rest h hh => ⟨fun i code length hi hcode hcur hslot => ?_, fun hcur => ?_⟩,
    fun s p hp => ⟨fun hhand => ?_, fun hhand => ?_⟩⟩
  · obtain ⟨d, hd, rfl, rfl⟩ := directiveOf_of_code hcode
    refine directive_waits hd hcur ?_
    rw [waits_of_station hi hd]
    simp [waitsForStation, State.handles, hh, hslot]
  · exact directive_waits (i := .restart) rfl hcur (by simp [waitsForPath, hh])
  · obtain ⟨h, hh⟩ := Option.ne_none_iff_exists'.1 hhand
    obtain ⟨t, ht, hempty, hagent⟩ := handOff_keeps_agent hh
    exact ⟨t, ht, hempty, hagent.trans hp,
      mem_ownSteps_of_prompt (mem_promptSteps_iff.2 (.inr (.inl ⟨by simp [hh], rfl⟩)))⟩
  · have blocked : s.pathFree = false := by simp [State.pathFree, hp, AgentState.isHeld]
    refine ⟨arbiterTake_not_free blocked, arbiterTake_not_mem_ownSteps blocked, fun e rest ht => ?_⟩
    have step : commandOf e.code.toNat ∈ s.agentStep := by simp [agentStep_held hp ht hhand]
    exact mem_ownSteps_of_prompt (mem_promptSteps_iff.2 (.inr (.inr (.inr (.inr step)))))

end Sys2Proof.Machine
end

section
/-! The sections of an epoch frame: words, channel headers and section headers (R133, R134, R135). -/

namespace Sys2Proof.Machine

/-! ## Words (R135) -/

theorem slotWord_of_marked {g : Segment} {k : Nat} {page : PageNo} (m : List Host.Cell) (h : g.filled.getLsbD k = true)
    (hpage : assocGet g.pages (k / 64) = some page) : slotWord m g k = readWord m (wordAddress page (k % 64)) := by
  simp [slotWord, h, hpage]

theorem slotWord_of_clear {g : Segment} {k : Nat} (m : List Host.Cell) (h : g.filled.getLsbD k = false) :
    slotWord m g k = absentMark := by
  simp [slotWord, h]

@[simp] theorem length_slotWords (m : List Host.Cell) (g : Segment) (count k : Nat) : (slotWords m g count k).length = 4 * count := by
  induction count generalizing k with
  | zero => rfl
  | succ c ih =>
    rw [slotWords, List.length_append, length_beBytes, ih]
    omega

/-- The word of each slot stands at its place. -/
theorem fieldAt_slotWords (m : List Host.Cell) (g : Segment) {count j : Nat} (k : Nat) (hj : j < count) :
    fieldAt (slotWords m g count k) (4 * j) 4 = (slotWord m g (k + j)).toNat := by
  induction count generalizing k j with
  | zero => omega
  | succ c ih =>
    rw [slotWords]
    cases j with
    | zero => rw [Nat.mul_zero, fieldAt_head (length_beBytes _ _), beNat_beBytes_of_lt (slotWord m g k).isLt, Nat.add_zero]
    | succ j =>
      rw [fieldAt_append_of_le (by rw [length_beBytes]; omega), length_beBytes, show 4 * (j + 1) - 4 = 4 * j by omega,
        ih (k + 1) (by omega)]
      congr 2
      omega

/-! ## Rate codes (R134) -/

theorem rateCodeOf_lt (n l : Nat) : rateCodeOf n l < 256 := by
  unfold rateCodeOf
  cases h : [1, 2, 3, 4, 5, 6, 7, 8, 9, 10].find? (fun r => samplesPerEpoch r l == some n) with
  | none => decide
  | some r =>
    have listed := List.mem_of_find?_eq_some h
    simp only [List.mem_cons, List.not_mem_nil, or_false] at listed
    simp only [Option.getD_some]
    omega

/-- Under each epoch length no two rate codes that fit it have the same n. -/
theorem rateCodeOf_samplesPerEpoch : ∀ l ∈ [250, 500, 1000, 2000], ∀ rate ∈ [1, 2, 3, 4, 5, 6, 7, 8, 9, 10],
    ∀ n ∈ samplesPerEpoch rate l, rateCodeOf n l = rate := by
  decide

/-! ## Channel headers (R134) -/

theorem channelBytes_of_unused (m : List Host.Cell) (l : Nat) {g : Segment} (c : Fin 4) (h : g.n = 0) : channelBytes m l g c = [] :=
  if_pos h

section
variable (m : List Host.Cell) (l : Nat) {g : Segment} (c : Fin 4)

theorem channelBytes_of_used (h : g.n ≠ 0) : channelBytes m l g c =
    beBytes 1 c.val ++ (beBytes 1 (rateCodeOf g.n l) ++ (beBytes 2 g.n ++ (beBytes 2 g.fill
      ++ (beBytes 1 (g.quality.toNat + if g.residual.isNone then 64 else 0) ++ (zeroBytes 1
      ++ (beInt 4 (g.residual.getD 0) ++ (zeroBytes 4 ++ (if g.fill = 0 then [] else slotWords m g g.n 0)))))))) := by
  simp only [channelBytes, if_neg h, List.append_assoc]

theorem length_channelBytes : (channelBytes m l g c).length = g.size := by
  by_cases h : g.n = 0
  · simp [channelBytes_of_unused m l c h, Segment.size, h]
  · rw [channelBytes_of_used m l c h]
    by_cases hf : g.fill = 0
    · simp [Segment.size, h, hf]
    · simp [Segment.size, h, hf]
      omega

end

/-- The fields of a channel header, each at its place (R134). -/
structure ChannelHeader (l : Nat) (g : Segment) (c : Fin 4) (b : List Byte) : Prop where
  channel  : fieldAt b 0 1 = c.val
  rate     : fieldAt b 1 1 = rateCodeOf g.n l
  n        : fieldAt b 2 2 = g.n
  fill     : fieldAt b 4 2 = g.fill
  quality  : fieldAt b 6 1 = g.quality.toNat + (if g.residual = none then 64 else 0)
  spare    : fieldAt b 7 1 = 0
  residual : signedOf 32 (fieldAt b 8 4) = g.residual.getD 0
  reserved : fieldAt b 12 4 = 0

section
variable (m : List Host.Cell) (l : Nat) {g : Segment} (c : Fin 4)

theorem channelHeader (hn : 1 ≤ g.n) (hmost : g.n ≤ 512) (hfill : g.fill ≤ g.n)
    (hres : ∀ x, g.residual = some x → -500000000 ≤ x ∧ x ≤ 499999999) : ChannelHeader l g c (channelBytes m l g c) := by
  have hc : c.val < 256 := by omega
  have hsize : g.n < 65536 := by omega
  have hcount : g.fill < 65536 := by omega
  have hflags : (g.quality.toNat + if g.residual = none then 64 else 0) < 256 := by
    have := g.quality.isLt
    split <;> omega
  have signed : signedOf 32 (beNat (beInt 4 (g.residual.getD 0))) = g.residual.getD 0 := by
    have range : -500000000 ≤ g.residual.getD 0 ∧ g.residual.getD 0 ≤ 499999999 := by
      cases hg : g.residual with
      | none => exact ⟨by decide, by decide⟩
      | some x => exact hres x hg
    exact signedOf_beInt (k := 4) (by decide) (by omega) (by omega)
  rw [channelBytes_of_used m l c (Nat.ne_of_gt hn)]
  constructor
  case channel => simp [fieldAt_head, beNat_beBytes_of_lt, hc]
  case residual => simp [fieldAt_append_of_le, fieldAt_head, signed]
  all_goals simp [fieldAt_append_of_le, fieldAt_head, beNat_beBytes_of_lt, rateCodeOf_lt, hsize, hcount, hflags]

/-- The words stand behind the header. -/
theorem fieldAt_channelBytes_word (hf : g.fill ≠ 0) {k : Nat} (hk : k < g.n) :
    fieldAt (channelBytes m l g c) (16 + 4 * k) 4 = (slotWord m g k).toNat := by
  have used : g.n ≠ 0 := by omega
  have word := fieldAt_slotWords m g 0 hk
  rw [Nat.zero_add] at word
  rw [channelBytes, if_neg used, if_neg hf, fieldAt_append_of_le (by simp), ← word]
  congr 1
  simp

end

/-! ## Section headers (R133) -/

/-- The fields of a section, each at its place (R133). -/
structure SectionLayout (m : List Host.Cell) (r : EpochRecord) (slot : Nat) (sec : Section) (b : List Byte) : Prop where
  code     : fieldAt b 0 2 = sec.code
  number   : fieldAt b 2 1 = slot
  state    : fieldAt b 3 1 = stationCode (some sec.state)
  channels : fieldAt b 4 1 = channels4.countP (fun c => decide ((r.segment slot c).n ≠ 0))
  reserved : (b.drop 5).take 11 = List.replicate 11 0
  rest     : b.drop 16 = channels4.flatMap (fun c => channelBytes m r.epochLength (r.segment slot c) c)

theorem stationCode_lt (x : Option StationState) : stationCode x < 256 := by
  rcases x with _ | _ | _ | _ | _ <;> decide

theorem sectionLayout (m : List Host.Cell) {r : EpochRecord} {slot : Nat} {sec : Section}
    (hsec : assocGet (r.sections.getD []) slot = some sec) (hslot : slot < 192) (hcode : sec.code < 65536) :
    SectionLayout m r slot sec (sectionBytes m r slot) := by
  have hslot : slot < 256 := by omega
  have hstate := stationCode_lt (some sec.state)
  have hcount : channels4.countP (fun c => decide ((r.segment slot c).n ≠ 0)) < 256 :=
    (List.countP_le_length (l := channels4)).trans_lt (by decide)
  rw [sectionBytes, hsec]
  simp only [List.append_assoc]
  constructor
  case code => simp [fieldAt_head, beNat_beBytes_of_lt, hcode]
  case channels =>
    generalize channels4.countP (fun c => decide ((r.segment slot c).n ≠ 0)) = count at hcount ⊢
    simp [fieldAt_append_of_le, fieldAt_head, beNat_beBytes_of_lt, hcount]
  case reserved => simp [List.drop_append, List.drop_of_length_le, zeroBytes]
  case rest => simp [List.drop_append, List.drop_of_length_le]
  all_goals simp [fieldAt_append_of_le, fieldAt_head, beNat_beBytes_of_lt, hslot, hstate]

/-- Settles O28: the words, the channel headers (`channelHeader`) and the section headers (`sectionLayout`). -/
theorem sectionContents : Obligations.SectionContents := by
  refine ⟨fun m g k => ⟨fun page h hpage => slotWord_of_marked m h hpage, fun h => by rw [slotWord_of_clear m h]; rfl⟩,
    fun m l g c h => channelBytes_of_unused m l c h, fun m l g c hn hmost hfill hres => ?_, fun l rate n hl h1 h10 h => ?_,
    fun m r slot sec hsec hslot hcode => ?_⟩
  · obtain ⟨channel, rate, n, fill, quality, spare, residual, reserved⟩ := channelHeader m l c hn hmost hfill hres
    refine ⟨?_, channel, rate, n, fill, quality, spare, residual, reserved, fun hf k hk => fieldAt_channelBytes_word m l c hf hk⟩
    rw [length_channelBytes, Segment.size, if_neg (Nat.ne_of_gt hn)]
    split <;> rfl
  · exact rateCodeOf_samplesPerEpoch l (by simpa using hl) rate (by simp; omega) n h
  · obtain ⟨code, number, state, channels, reserved, rest⟩ := sectionLayout m hsec hslot hcode
    exact ⟨code, number, state, channels, reserved, rest⟩

end Sys2Proof.Machine
end

section
/-! The fragment plan (R130) and the epoch frame (R131, R132, R135). -/

namespace Sys2Proof.Machine

variable {s t u : State}

/-! ## The plan (R130) -/

/-- Sections of the sizes that `size` gives, packed behind those of the current fragment (R130). -/
def pack (size : Nat → Nat) (cur slots : List Nat) : List (List Nat) :=
  packSections cur (cur.map size).sum (slots.map (fun slot => (slot, size slot)))

theorem fragmentPlan_eq (r : EpochRecord) : r.fragmentPlan = pack r.sectionSize [] r.sectionSlots := rfl

section
variable {size : Nat → Nat} {cur slots : List Nat}

theorem pack_nil : pack size cur [] = [cur] := rfl

theorem pack_first (slot : Nat) : pack size [] (slot :: slots) = pack size [slot] slots := by simp [pack, packSections]

theorem pack_joins {slot : Nat} (hcur : cur ≠ []) (h : (cur.map size).sum + size slot ≤ 16384) :
    pack size cur (slot :: slots) = pack size (cur ++ [slot]) slots := by
  simp [pack, packSections, hcur, Config.framePayload, h]

theorem pack_starts {slot : Nat} (hcur : cur ≠ []) (h : ¬ (cur.map size).sum + size slot ≤ 16384) :
    pack size cur (slot :: slots) = cur :: pack size [slot] slots := by
  simp [pack, packSections, hcur, Config.framePayload, h]

/-- Fragments that keep the sections' order, are not empty, stay within 16,384 bytes, and end only where the next section does not
fit (R130). -/
structure Packed (size : Nat → Nat) (slots : List Nat) (fs : List (List Nat)) : Prop where
  flatten  : fs.flatten = slots
  nonempty : ∀ f ∈ fs, f ≠ []
  within   : ∀ f ∈ fs, (f.map size).sum ≤ 16384
  full     : ∀ k f g slot, fs[k]? = some f → fs[k + 1]? = some g → g.head? = some slot → 16384 < (f.map size).sum + size slot

/-- The current fragment is the front of the first one. -/
theorem pack_front : ∃ more rest, pack size cur slots = (cur ++ more) :: rest := by
  induction slots generalizing cur with
  | nil => exact ⟨[], [], by simp [pack_nil]⟩
  | cons slot slots ih =>
    by_cases hcur : cur = []
    · obtain ⟨more, rest, h⟩ := ih (cur := [slot])
      exact ⟨[slot] ++ more, rest, by rw [hcur, pack_first, h]; rfl⟩
    · by_cases hfit : (cur.map size).sum + size slot ≤ 16384
      · obtain ⟨more, rest, h⟩ := ih (cur := cur ++ [slot])
        exact ⟨[slot] ++ more, rest, by rw [pack_joins hcur hfit, h, List.append_assoc]⟩
      · exact ⟨[], pack size [slot] slots, by rw [pack_starts hcur hfit, List.append_nil]⟩

theorem Packed.cons {slot : Nat} {fs : List (List Nat)} (hcur : cur ≠ []) (hsum : (cur.map size).sum ≤ 16384)
    (hfull : ¬ (cur.map size).sum + size slot ≤ 16384) (h : Packed size slots fs) (hfront : ∃ more rest, fs = ([slot] ++ more) :: rest) :
    Packed size (cur ++ slots) (cur :: fs) where
  flatten := by rw [List.flatten_cons, h.flatten]
  nonempty := List.forall_mem_cons.2 ⟨hcur, h.nonempty⟩
  within := List.forall_mem_cons.2 ⟨hsum, h.within⟩
  full k f g x hf hg hx := by
    cases k with
    | zero =>
      obtain ⟨more, rest, rfl⟩ := hfront
      simp only [List.getElem?_cons_zero, Option.some.injEq] at hf
      simp only [Nat.zero_add, List.getElem?_cons_succ, List.getElem?_cons_zero, Option.some.injEq] at hg
      subst hf hg
      obtain rfl : slot = x := by simpa using hx
      omega
    | succ k => exact h.full k f g x hf hg hx

theorem pack_packed (hsize : ∀ slot, size slot ≤ 16384) (hcur : cur ≠ []) (hsum : (cur.map size).sum ≤ 16384) :
    Packed size (cur ++ slots) (pack size cur slots) := by
  induction slots generalizing cur with
  | nil =>
    rw [pack_nil]
    exact ⟨by simp, by simpa using hcur, by simpa using hsum, by simp⟩
  | cons slot slots ih =>
    by_cases hfit : (cur.map size).sum + size slot ≤ 16384
    · rw [pack_joins hcur hfit, show cur ++ slot :: slots = cur ++ [slot] ++ slots by simp]
      exact ih (by simp) (by simpa using hfit)
    · rw [pack_starts hcur hfit]
      exact .cons hcur hsum hfit (ih (cur := [slot]) (by simp) (by simpa using hsize slot)) pack_front

end

theorem Segment.size_le {g : Segment} (h : g.n ≤ 512) : g.size ≤ 2064 := by
  unfold Segment.size
  split_ifs <;> omega

theorem sectionSize_le {r : EpochRecord} (h : ∀ slot c, (r.segment slot c).n ≤ 512) (slot : Nat) : r.sectionSize slot ≤ 16384 := by
  have size (c : Fin 4) := Segment.size_le (h slot c)
  have h0 := size 0
  have h1 := size 1
  have h2 := size 2
  have h3 := size 3
  simp only [EpochRecord.sectionSize, channels4, List.map_cons, List.map_nil, List.sum_cons, List.sum_nil]
  omega

theorem fragmentPlan_of_none {r : EpochRecord} (h : r.sectionSlots = []) : r.fragmentPlan = [[]] := by
  rw [fragmentPlan_eq, h, pack_nil]

theorem fragmentPlan_packed {r : EpochRecord} (hn : ∀ slot c, (r.segment slot c).n ≤ 512) (h : r.sectionSlots ≠ []) :
    Packed r.sectionSize r.sectionSlots r.fragmentPlan := by
  obtain ⟨slot, slots, hslots⟩ := List.exists_cons_of_ne_nil h
  rw [fragmentPlan_eq, hslots, pack_first]
  exact pack_packed (cur := [slot]) (sectionSize_le hn) (by simp) (by simpa using sectionSize_le hn slot)

/-! ## The frame (R131, R132, R135) -/

theorem length_sectionBytes (m : List Host.Cell) {r : EpochRecord} {slot : Nat} (h : slot ∈ r.sectionSlots) :
    (sectionBytes m r slot).length = r.sectionSize slot := by
  obtain ⟨sec, hsec⟩ := Option.isSome_iff_exists.1 ((assocGet_isSome_iff_mem_keys (r.sections.getD []) slot).2 h)
  rw [sectionBytes, hsec]
  simp only [List.length_append, List.length_flatMap, length_channelBytes, length_beBytes, length_zeroBytes, EpochRecord.sectionSize]

theorem length_fragmentPayload (m : List Host.Cell) {r : EpochRecord} {slots : List Nat} (h : ∀ slot ∈ slots, slot ∈ r.sectionSlots) :
    (fragmentPayload m r slots).length = (slots.map r.sectionSize).sum := by
  rw [fragmentPayload, List.length_flatMap]
  congr 1
  exact List.map_congr_left fun slot hslot => length_sectionBytes m (h slot hslot)

@[simp] theorem fieldAt_flagByte_skip {off : Nat} (h : 1 ≤ off) (b : Bool) (rest : List Byte) (len : Nat) :
    fieldAt (flagByte b ++ rest) off len = fieldAt rest (off - 1) len := fieldAt_append_of_le (a := flagByte b) h rest len

@[simp] theorem fieldAt_flagByte_head (b : Bool) (rest : List Byte) : fieldAt (flagByte b ++ rest) 0 1 = if b then 1 else 0 :=
  (fieldAt_head (a := flagByte b) rfl rest).trans (beNat_flagByte b)

/-- The header of an epoch frame over a payload of `len` bytes (R131, R132). -/
def epochHeader (unit : BitVec 4) (r : EpochRecord) (e : Emission) (len : Nat) : List Byte :=
  beBytes 1 0x52 ++ (beBytes 2 len ++ (beBytes 1 unit.toNat ++ (beBytes 6 r.number ++ (beBytes 8 r.start ++ (beBytes 1 e.next
    ++ (flagByte e.atLast ++ (beBytes 1 ((r.refAtClose.map RefState.toCode).getD 0)
    ++ (beBytes 1 ((r.storeAtClose.map StoreState.toCode).getD 0) ++ (beBytes 2 r.skipped ++ (beBytes 1 e.slotsOf.length
    ++ (beBytes 2 r.epochLength ++ zeroBytes 5)))))))))))

theorem length_epochHeader (unit : BitVec 4) (r : EpochRecord) (e : Emission) (len : Nat) : (epochHeader unit r e len).length = 32 := by
  simp [epochHeader]

theorem epochFrame_eq (unit : BitVec 4) (m : List Host.Cell) (r : EpochRecord) (e : Emission) :
    epochFrame unit m r e =
      withCheck (epochHeader unit r e (fragmentPayload m r e.slotsOf).length ++ fragmentPayload m r e.slotsOf) := by
  simp only [epochFrame, epochHeader, List.append_assoc]

theorem refCode_lt (x : RefState) : x.toCode < 256 := by cases x <;> decide

theorem storeCode_lt (x : StoreState) : x.toCode < 256 := by cases x <;> decide

/-- The fields of an epoch frame's header, each at its place (R131, R132). -/
structure EpochHeader (unit : BitVec 4) (r : EpochRecord) (e : Emission) (len : Nat) (b : List Byte) : Prop where
  type        : fieldAt b 0 1 = 0x52
  length      : len < 65536 → fieldAt b 1 2 = len
  unit        : fieldAt b 3 1 = unit.toNat
  number      : r.number < 2 ^ 48 → fieldAt b 4 6 = r.number
  start       : r.start < 2 ^ 64 → fieldAt b 10 8 = r.start
  fragment    : e.next < 256 → fieldAt b 18 1 = e.next
  last        : fieldAt b 19 1 = if e.plan.length ≤ e.next + 1 then 1 else 0
  reference   : ∀ x, r.refAtClose = some x → fieldAt b 20 1 = x.toCode
  store       : ∀ x, r.storeAtClose = some x → fieldAt b 21 1 = x.toCode
  skipped     : r.skipped < 65536 → fieldAt b 22 2 = r.skipped
  sections    : e.slotsOf.length < 256 → fieldAt b 24 1 = e.slotsOf.length
  epochLength : r.epochLength < 65536 → fieldAt b 25 2 = r.epochLength
  reserved    : fieldAt b 27 5 = 0

theorem epochHeader_fields (unit : BitVec 4) (r : EpochRecord) (e : Emission) (len : Nat) (rest : List Byte) :
    EpochHeader unit r e len (epochHeader unit r e len ++ rest) := by
  have hunit : unit.toNat < 256 := by omega
  simp only [epochHeader, List.append_assoc]
  constructor
  case type => simp [fieldAt_head, beNat_beBytes_of_lt]
  case unit => simp [fieldAt_append_of_le, fieldAt_head, beNat_beBytes_of_lt, hunit]
  case last => simp [fieldAt_append_of_le, Emission.atLast]
  case reserved => simp [fieldAt_append_of_le, fieldAt_head]
  case reference =>
    intro x hx
    simp [fieldAt_append_of_le, fieldAt_head, beNat_beBytes_of_lt, hx, refCode_lt]
  case store =>
    intro x hx
    simp [fieldAt_append_of_le, fieldAt_head, beNat_beBytes_of_lt, hx, storeCode_lt]
  case number =>
    intro (h : r.number < 281474976710656)
    simp [fieldAt_append_of_le, fieldAt_head, beNat_beBytes_of_lt, h]
  case start =>
    intro (h : r.start < 18446744073709551616)
    simp [fieldAt_append_of_le, fieldAt_head, beNat_beBytes_of_lt, h]
  all_goals
    intro h
    simp [fieldAt_append_of_le, fieldAt_head, beNat_beBytes_of_lt, h]

/-- Settles O27: the plan is `Packed`; a frame is its header (`EpochHeader`), its payload and the check field. -/
theorem fragmentPlanAndFrame : Obligations.FragmentPlanAndFrame := by
  refine ⟨fun r hn => ?_, fun unit m r e hslots => ?_⟩
  · by_cases hnone : r.sectionSlots = []
    · have plan := fragmentPlan_of_none hnone
      exact ⟨by simp [plan, hnone], fun _ => plan, fun h => absurd hnone h, by simp [plan], by simp [plan]⟩
    · obtain ⟨flatten, nonempty, within, full⟩ := fragmentPlan_packed hn hnone
      exact ⟨flatten, fun h => absurd h hnone, fun _ => nonempty, within, full⟩
  · intro payload frame
    have header := length_epochHeader unit r e payload.length
    have whole : frame = withCheck (epochHeader unit r e payload.length ++ payload) := epochFrame_eq unit m r e
    have fields : EpochHeader unit r e payload.length frame := by
      rw [whole, withCheck, List.append_assoc]
      exact epochHeader_fields unit r e payload.length _
    obtain ⟨type, length, unitField, number, start, fragment, last, reference, store, skipped, sections, epochLength, reserved⟩ :=
      fields
    refine ⟨length_fragmentPayload m hslots, ?_, ?_, whole ▸ checkPasses_withCheck _, type, length, unitField, number, start, fragment,
      last, reference, store, skipped, sections, epochLength, reserved⟩
    · rw [whole, length_withCheck, List.length_append, header]
      omega
    · rw [whole, withCheck, List.append_assoc, ← header, List.drop_left, List.take_left]

end Sys2Proof.Machine
end

section
/-! The reports of READ-STORE and READ-STATION, field by field, and the counters of READ-COUNTERS (R168, R169, R170, R183). -/

namespace Sys2Proof.Machine

variable {s t u : State}

/-! ## Parts of a run -/

/-- A stretch that lies within one part of a run of parts. -/
theorem drop_take_flatten {ps : List (List Byte)} {k : Nat} {a : List Byte} (ha : ps[k]? = some a) {j len : Nat}
    (h : j + len ≤ a.length) :
    (ps.flatten.drop (((ps.take k).map List.length).sum + j)).take len = (a.drop j).take len := by
  induction ps generalizing k with
  | nil => simp at ha
  | cons x ps ih =>
    cases k with
    | zero =>
      obtain rfl : x = a := by simpa using ha
      simp only [List.take_zero, List.map_nil, List.sum_nil, Nat.zero_add, List.flatten_cons]
      rw [List.drop_append_of_le_length (by omega), List.take_append_of_le_length (by simp; omega)]
    | succ k =>
      rw [← ih (by simpa using ha), List.take_succ_cons, List.map_cons, List.sum_cons, List.flatten_cons, Nat.add_assoc,
        List.drop_length_add_append]

/-- The counters of a report stand one behind the other (R169). -/
theorem fieldAt_counterBytes {cs : List Counter} {k n : Nat} (hk : cs[k]? = some n) (hn : n ≤ 4294967295) :
    fieldAt (cs.flatMap (beBytes 4)) (4 * k) 4 = n := by
  induction cs generalizing k with
  | nil => simp at hk
  | cons x cs ih =>
    rw [List.flatMap_cons]
    cases k with
    | zero =>
      obtain rfl : x = n := by simpa using hk
      rw [Nat.mul_zero, fieldAt_head (length_beBytes _ _), beNat_beBytes_of_lt (by omega)]
    | succ k =>
      rw [fieldAt_append_of_le (by rw [length_beBytes]; omega), length_beBytes, show 4 * (k + 1) - 4 = 4 * k by omega,
        ih (by simpa using hk)]

/-! ## READ-STORE (R170) -/

theorem emitterCode_lt (x : Emitter) : x.toCode < 256 := by cases x <;> simp [Emitter.toCode]

theorem failureCode_lt (x : FailureAction) : x.toCode < 256 := by cases x <;> decide

theorem countRecords_sum (rs : Assoc EpochRecord) : rs.countP (fun p => p.2.inState .opened) + rs.countP (fun p => p.2.inState .closed) +
    rs.countP (fun p => p.2.inState .emitting) = rs.length := by
  induction rs with
  | nil => rfl
  | cons p rs ih => cases h : p.2.state <;> simp [EpochRecord.inState, h] at ih ⊢ <;> omega

theorem storeReport_eq (s : State) : storeReport s =
    beBytes 1 s.store.toCode ++ (flagByte s.rememberedStarved ++ (beBytes 2 s.plan.epochLength ++ (beBytes 1 s.plan.windowDepth
    ++ (beBytes 2 s.plan.hold ++ (beBytes 1 s.plan.failureAction.toCode ++ (flagByte s.eLo.isSome ++ (beBytes 6 (s.eLo.getD 0)
    ++ (beBytes 1 s.openCount ++ (beBytes 2 s.freePages.length ++ (beBytes 1 (16 - s.records.length) ++ (beBytes 1 s.openCount
    ++ (beBytes 1 (s.countRecords .closed) ++ (beBytes 1 (s.countRecords .emitting) ++ (beBytes 1 s.closedQueue.length
    ++ (flagByte (!s.closedQueue.isEmpty) ++ (beBytes 6 ((s.closedQueue.head?.map s.epochOf).getD 0) ++ (beBytes 1 s.emitter.toCode
    ++ (flagByte s.emitter.emission.isSome ++ (beBytes 6 ((s.emitter.emission.map (fun e => s.epochOf e.record)).getD 0)
    ++ (beBytes 1 ((s.emitter.emission.map (·.next)).getD 0) ++ beBytes 2 s.pendingSkip)))))))))))))))))))) := by
  unfold storeReport
  simp only [List.append_assoc, Config.epochRecords]

/-- The fields of READ-STORE's report, each at its place, as numbers of the state (R170). -/
structure StoreReport (s : State) (b : List Byte) : Prop where
  length     : b.length = 41
  store      : fieldAt b 0 1 = s.store.toCode
  remembered : fieldAt b 1 1 = if s.rememberedStarved then 1 else 0
  epoch      : s.plan.epochLength < 65536 → fieldAt b 2 2 = s.plan.epochLength
  depth      : s.plan.windowDepth < 256 → fieldAt b 4 1 = s.plan.windowDepth
  hold       : s.plan.hold < 65536 → fieldAt b 5 2 = s.plan.hold
  action     : fieldAt b 7 1 = s.plan.failureAction.toCode
  window     : fieldAt b 8 1 = if s.eLo.isSome then 1 else 0
  lo         : s.eLo.getD 0 < 2 ^ 48 → fieldAt b 9 6 = s.eLo.getD 0
  opens      : s.openCount < 256 → fieldAt b 15 1 = s.openCount ∧ fieldAt b 19 1 = s.openCount
  pages      : s.freePages.length < 65536 → fieldAt b 16 2 = s.freePages.length
  free       : fieldAt b 18 1 = 16 - s.records.length
  closed     : s.countRecords .closed < 256 → fieldAt b 20 1 = s.countRecords .closed
  emitting   : s.countRecords .emitting < 256 → fieldAt b 21 1 = s.countRecords .emitting
  queue      : s.closedQueue.length < 256 → fieldAt b 22 1 = s.closedQueue.length
  waits      : fieldAt b 23 1 = if s.closedQueue.isEmpty then 0 else 1
  head       : (s.closedQueue.head?.map s.epochOf).getD 0 < 2 ^ 48 → fieldAt b 24 6 = (s.closedQueue.head?.map s.epochOf).getD 0
  emitter    : fieldAt b 30 1 = s.emitter.toCode
  sends      : fieldAt b 31 1 = if s.emitter.emission.isSome then 1 else 0
  number     : (s.emitter.emission.map (fun e => s.epochOf e.record)).getD 0 < 2 ^ 48 →
    fieldAt b 32 6 = (s.emitter.emission.map (fun e => s.epochOf e.record)).getD 0
  fragment   : (s.emitter.emission.map (·.next)).getD 0 < 256 → fieldAt b 38 1 = (s.emitter.emission.map (·.next)).getD 0
  skip       : s.pendingSkip < 65536 → fieldAt b 39 2 = s.pendingSkip

theorem storeReport_fields (s : State) : StoreReport s (storeReport s) := by
  have hfree : 16 - s.records.length < 256 := by omega
  rw [storeReport_eq]
  constructor
  case length => simp
  case store => simp [fieldAt_head, beNat_beBytes_of_lt, storeCode_lt]
  case remembered => simp [fieldAt_append_of_le]
  case action => simp [fieldAt_append_of_le, fieldAt_head, beNat_beBytes_of_lt, failureCode_lt]
  case window => simp [fieldAt_append_of_le]
  case free => simp [fieldAt_append_of_le, fieldAt_head, beNat_beBytes_of_lt, hfree]
  case waits => cases s.closedQueue <;> simp [fieldAt_append_of_le]
  case emitter => simp [fieldAt_append_of_le, fieldAt_head, beNat_beBytes_of_lt, emitterCode_lt]
  case sends => simp [fieldAt_append_of_le]
  case skip =>
    intro h
    simp [fieldAt_append_of_le, fieldAt_whole, beNat_beBytes_of_lt, h]
  case lo =>
    generalize s.eLo.getD 0 = lo
    intro (h : lo < 281474976710656)
    simp [fieldAt_append_of_le, fieldAt_head, beNat_beBytes_of_lt, h]
  case head =>
    generalize (s.closedQueue.head?.map s.epochOf).getD 0 = e
    intro (h : e < 281474976710656)
    simp [fieldAt_append_of_le, fieldAt_head, beNat_beBytes_of_lt, h]
  case number =>
    generalize (s.emitter.emission.map (fun e => s.epochOf e.record)).getD 0 = e
    intro (h : e < 281474976710656)
    simp [fieldAt_append_of_le, fieldAt_head, beNat_beBytes_of_lt, h]
  case fragment =>
    generalize (s.emitter.emission.map (·.next)).getD 0 = k
    intro h
    simp [fieldAt_append_of_le, fieldAt_head, beNat_beBytes_of_lt, h]
  all_goals
    intro h
    simp [fieldAt_append_of_le, fieldAt_head, beNat_beBytes_of_lt, h]

theorem emission_of_sends {e : Emission} (h : s.emitter = .building e ∨ ∃ fate, s.emitter = .sending e fate) :
    s.emitter.emission = some e := by
  rcases h with h | ⟨fate, h⟩ <;> rw [h, Emitter.emission]

theorem epochOf_of_record {j : Nat} {r : EpochRecord} (h : assocGet s.records j = some r) : s.epochOf j = r.number := by
  rw [State.epochOf, h]
  rfl

theorem countRecords_le (s : State) (x : RecordState) : s.countRecords x ≤ s.records.length := List.countP_le_length

/-! ## READ-STATION (R168) -/

theorem length_channelReport (ch : Channel) : (channelReport ch).length = 11 := by
  cases h : ch.window <;> simp [channelReport, h]

theorem length_correctionReport (c : Option Correction) : (correctionReport c).length = 33 := by
  cases c <;> simp [correctionReport]

/-- The parts of a station report. -/
def stationParts (st : Station) : List (List Byte) :=
  [beBytes 1 (stationCode (some st.state)) ++ (beBytes 2 st.code ++ (beBytes 1 st.mask.toCode ++ (beBytes 2 st.silenceLimit
      ++ beBytes 4 st.silenceMs))),
    channelReport (st.channels.get 0), channelReport (st.channels.get 1), channelReport (st.channels.get 2),
    channelReport (st.channels.get 3), correctionReport (some st.current), correctionReport (st.previous.map (·.record)),
    correctionReport st.staged, flagByte st.previous.isSome ++ beBytes 6 ((st.previous.map (·.eSw)).getD 0)]

theorem stationReport_eq (st : Station) : stationReport st = (stationParts st).flatten := by
  simp [stationReport, stationParts, Quad.toList, Quad.get]

/-- The part of a station report that begins at `off`. -/
theorem stationReport_part {st : Station} {k off : Nat} {a : List Byte} (ha : (stationParts st)[k]? = some a)
    (hoff : (((stationParts st).take k).map List.length).sum = off) {j len : Nat} (h : j + len ≤ a.length) :
    ((stationReport st).drop (off + j)).take len = (a.drop j).take len := by
  rw [stationReport_eq, ← hoff, drop_take_flatten ha h]

theorem length_stationReport (st : Station) : (stationReport st).length = 160 := by
  simp [stationReport_eq, stationParts, length_channelReport, length_correctionReport]

theorem stationReport_head (st : Station) {off len : Nat} (h : off + len ≤ 10) : fieldAt (stationReport st) off len =
    fieldAt (beBytes 1 (stationCode (some st.state)) ++ (beBytes 2 st.code ++ (beBytes 1 st.mask.toCode ++ (beBytes 2 st.silenceLimit
      ++ beBytes 4 st.silenceMs)))) off len := by
  have part := stationReport_part (st := st) (k := 0) (off := 0) rfl rfl (j := off) (len := len) (by simpa using h)
  rw [Nat.zero_add] at part
  exact congrArg beNat part

theorem stationReport_channel (st : Station) (c : Fin 4) {j len : Nat} (h : j + len ≤ 11) :
    ((stationReport st).drop (10 + 11 * c.val + j)).take len = ((channelReport (st.channels.get c)).drop j).take len := by
  refine stationReport_part (k := c.val + 1) ?_ ?_ (by rwa [length_channelReport])
  · fin_cases c <;> rfl
  · fin_cases c <;> simp [stationParts, length_channelReport]

/-- The three correction records stand at 54, 87 and 120. -/
theorem stationReport_record {st : Station} {k : Nat} {record : Option Correction}
    (hk : (k, record) ∈ [(5, some st.current), (6, st.previous.map (·.record)), (7, st.staged)]) {j len : Nat} (h : j + len ≤ 33) :
    ((stationReport st).drop (54 + 33 * (k - 5) + j)).take len = ((correctionReport record).drop j).take len := by
  simp only [List.mem_cons, Prod.mk.injEq, List.not_mem_nil, or_false] at hk
  refine stationReport_part (k := k) ?_ ?_ (by rwa [length_correctionReport])
  · rcases hk with ⟨rfl, rfl⟩ | ⟨rfl, rfl⟩ | ⟨rfl, rfl⟩ <;> rfl
  · rcases hk with ⟨rfl, -⟩ | ⟨rfl, -⟩ | ⟨rfl, -⟩ <;> simp [stationParts, length_channelReport, length_correctionReport]

theorem stationReport_tail (st : Station) {j len : Nat} (h : j + len ≤ 7) : fieldAt (stationReport st) (153 + j) len =
    fieldAt (flagByte st.previous.isSome ++ beBytes 6 ((st.previous.map (·.eSw)).getD 0)) j len :=
  congrArg beNat (stationReport_part (k := 8) rfl (by simp [stationParts, length_channelReport, length_correctionReport])
    (by simpa using h))

theorem maskCode_lt (x : RouteMask) : x.toCode < 256 := by
  unfold RouteMask.toCode
  split_ifs <;> decide

/-- The remaining milliseconds of a running silence timer, rounded up; 1 at its limit (R168, log 18). -/
theorem silenceMs_of_running {st : Station} {n : Nat} (h : st.silence = some n) : st.silenceMs =
    if n < st.silenceLimit * 1000000000 then (st.silenceLimit * 1000000000 - n + 999999) / 1000000 else 1 := by
  rw [Station.silenceMs, h]
  simp only [Station.silenceNs, nsPerSecond, nsPerMs]
  split_ifs <;> omega

theorem wordCode_lt (x : SampleWord) : x.toCode < 256 := by cases x <;> decide

theorem orderCode_lt (x : SampleOrder) : x.toCode < 256 := by cases x <;> decide

theorem channelReport_eq (ch : Channel) : channelReport ch = beBytes 1 ch.rate ++ (beBytes 1 ch.word.toCode ++ (beBytes 1 ch.order.toCode
    ++ (match ch.window with
      | some w => flagByte true ++ (beBytes 2 w.high.toNat ++ (beBytes 4 w.marks.toNat ++ beBytes 1 w.staleRun))
      | none => zeroBytes 8))) := by
  unfold channelReport
  cases ch.window <;> simp only [List.append_assoc]

/-- The fields of a channel's report (R183). -/
structure ChannelReport (ch : Channel) (b : List Byte) : Prop where
  rate   : ch.rate < 256 → fieldAt b 0 1 = ch.rate
  word   : fieldAt b 1 1 = ch.word.toCode
  order  : fieldAt b 2 1 = ch.order.toCode
  absent : ch.window = none → (b.drop 3).take 8 = List.replicate 8 0
  window : ∀ w, ch.window = some w → fieldAt b 3 1 = 1 ∧ fieldAt b 4 2 = w.high.toNat ∧ fieldAt b 6 4 = w.marks.toNat ∧
    (w.staleRun < 256 → fieldAt b 10 1 = w.staleRun)

theorem channelReport_fields (ch : Channel) : ChannelReport ch (channelReport ch) := by
  rw [channelReport_eq]
  constructor
  case rate =>
    intro h
    simp [fieldAt_head, beNat_beBytes_of_lt, h]
  case word => simp [fieldAt_append_of_le, fieldAt_head, beNat_beBytes_of_lt, wordCode_lt]
  case order => simp [fieldAt_append_of_le, fieldAt_head, beNat_beBytes_of_lt, orderCode_lt]
  case absent =>
    intro h
    simp [h, List.drop_append, List.drop_of_length_le, zeroBytes]
  case window =>
    intro w hw
    have hhigh := w.high.isLt
    have hmarks := w.marks.isLt
    simp only [hw]
    refine ⟨?_, ?_, ?_, fun h => ?_⟩
    · simp [fieldAt_append_of_le]
    · simp [fieldAt_append_of_le, fieldAt_head, beNat_beBytes_of_lt, hhigh]
    · simp [fieldAt_append_of_le, fieldAt_head, beNat_beBytes_of_lt, hmarks]
    · simp [fieldAt_append_of_le, fieldAt_whole, beNat_beBytes_of_lt, h]

/-- The fields of a correction record's report (R183). -/
structure CorrectionReport (c : Correction) (b : List Byte) : Prop where
  present   : fieldAt b 0 1 = 1
  offset    : signedOf 64 (fieldAt b 1 8) = c.offset
  drift     : signedOf 32 (fieldAt b 9 4) = c.drift
  refTime   : fieldAt b 13 6 = c.refTime
  span      : fieldAt b 19 4 = c.span
  version   : fieldAt b 23 2 = c.version
  isDefault : fieldAt b 25 1 = if c.isDefault then 1 else 0
  switched  : fieldAt b 26 1 = if c.switch.isSome then 1 else 0
  switch    : fieldAt b 27 6 = c.switch.getD 0

theorem correctionReport_fields {c : Correction} (h : c.InRange) : CorrectionReport c (correctionReport (some c)) := by
  obtain ⟨hoffset, hdrift, hrefTime, hspan, hversion, hswitch⟩ := h
  have offset : signedOf 64 (beNat (beInt 8 c.offset)) = c.offset := signedOf_beInt (k := 8) (by decide) (by omega) (by omega)
  have drift : signedOf 32 (beNat (beInt 4 c.drift)) = c.drift := signedOf_beInt (k := 4) (by decide) (by omega) (by omega)
  have hrefTime : c.refTime < 281474976710656 := hrefTime
  have hspan : c.span < 4294967296 := by omega
  have hversion : c.version < 65536 := hversion
  have hswitch : c.switch.getD 0 < 281474976710656 := by
    cases hsw : c.switch with
    | none => decide
    | some x => exact hswitch x hsw
  simp only [correctionReport, List.append_assoc]
  constructor
  case present => simp
  case offset => simp [fieldAt_head, offset]
  case drift => simp [fieldAt_append_of_le, fieldAt_head, drift]
  case isDefault => simp [fieldAt_append_of_le]
  case switched => simp [fieldAt_append_of_le]
  case switch => simp [fieldAt_append_of_le, fieldAt_whole, beNat_beBytes_of_lt, hswitch]
  all_goals simp [fieldAt_append_of_le, fieldAt_head, beNat_beBytes_of_lt, hrefTime, hspan, hversion]

/-- The layout that the obligation gives a correction record at `off` of a report (R183). -/
def RecordAt (b : List Byte) (off : Nat) (record : Option Correction) : Prop :=
  (record = none → (b.drop off).take 33 = List.replicate 33 0) ∧
  ∀ c, record = some c → c.InRange →
    fieldAt b off 1 = 1 ∧ signedOf 64 (fieldAt b (off + 1) 8) = c.offset ∧ signedOf 32 (fieldAt b (off + 9) 4) = c.drift ∧
    fieldAt b (off + 13) 6 = c.refTime ∧ fieldAt b (off + 19) 4 = c.span ∧ fieldAt b (off + 23) 2 = c.version ∧
    fieldAt b (off + 25) 1 = (if c.isDefault then 1 else 0) ∧
    fieldAt b (off + 26) 1 = (if c.switch.isSome then 1 else 0) ∧ fieldAt b (off + 27) 6 = c.switch.getD 0

theorem stationReport_recordAt {st : Station} {k : Nat} {record : Option Correction}
    (hk : (k, record) ∈ [(5, some st.current), (6, st.previous.map (·.record)), (7, st.staged)]) :
    RecordAt (stationReport st) (54 + 33 * (k - 5)) record := by
  have part {j len : Nat} (h : j + len ≤ 33) := stationReport_record hk h
  have field {j len : Nat} (h : j + len ≤ 33) : fieldAt (stationReport st) (54 + 33 * (k - 5) + j) len =
    fieldAt (correctionReport record) j len := congrArg beNat (part h)
  refine ⟨fun hnone => ?_, fun c hc hin => ?_⟩
  · rw [← Nat.add_zero (54 + 33 * (k - 5)), part (by decide), hnone]
    rfl
  · subst hc
    obtain ⟨present, offset, drift, refTime, span, version, isDefault, switched, switch⟩ := correctionReport_fields hin
    refine ⟨(field (j := 0) (by decide)).trans present, ?_, ?_, (field (by decide)).trans refTime, (field (by decide)).trans span,
      (field (by decide)).trans version, (field (by decide)).trans isDefault, (field (by decide)).trans switched,
      (field (by decide)).trans switch⟩
    · rw [field (by decide), offset]
    · rw [field (by decide), drift]

/-- The first fields of a station report (R183). -/
structure StationHead (st : Station) (b : List Byte) : Prop where
  state   : fieldAt b 0 1 = stationCode (some st.state)
  code    : st.code < 65536 → fieldAt b 1 2 = st.code
  mask    : fieldAt b 3 1 = st.mask.toCode
  limit   : st.silenceLimit < 65536 → fieldAt b 4 2 = st.silenceLimit
  silence : st.silenceMs < 4294967296 → fieldAt b 6 4 = st.silenceMs

theorem stationReport_headFields (st : Station) : StationHead st (stationReport st) := by
  have field {off len : Nat} (h : off + len ≤ 10) := stationReport_head st h
  constructor
  case state =>
    rw [field (by decide)]
    simp [fieldAt_head, beNat_beBytes_of_lt, stationCode_lt]
  case code =>
    intro h
    rw [field (by decide)]
    simp [fieldAt_append_of_le, fieldAt_head, beNat_beBytes_of_lt, h]
  case mask =>
    rw [field (by decide)]
    simp [fieldAt_append_of_le, fieldAt_head, beNat_beBytes_of_lt, maskCode_lt]
  case limit =>
    intro h
    rw [field (by decide)]
    simp [fieldAt_append_of_le, fieldAt_head, beNat_beBytes_of_lt, h]
  case silence =>
    intro h
    rw [field (by decide)]
    simp [fieldAt_append_of_le, fieldAt_whole, beNat_beBytes_of_lt, h]

/-- The channels' reports stand at 10, 21, 32 and 43. -/
theorem fieldAt_stationReport_channel (st : Station) (c : Fin 4) {j len : Nat} (h : j + len ≤ 11) :
    fieldAt (stationReport st) (10 + 11 * c.val + j) len = fieldAt (channelReport (st.channels.get c)) j len :=
  congrArg beNat (stationReport_channel st c h)

theorem stationReport_window (st : Station) : fieldAt (stationReport st) 153 1 = (if st.previous.isSome then 1 else 0) ∧
    ((st.previous.map (·.eSw)).getD 0 < 2 ^ 48 → fieldAt (stationReport st) 154 6 = (st.previous.map (·.eSw)).getD 0) := by
  refine ⟨(stationReport_tail st (j := 0) (by decide)).trans (by simp), ?_⟩
  have tail := stationReport_tail st (j := 1) (len := 6) (by decide)
  generalize (st.previous.map (·.eSw)).getD 0 = e at tail
  intro (h : e < 281474976710656)
  rw [tail]
  simp [fieldAt_whole, beNat_beBytes_of_lt, h]

/-- Settles O40: each report by its own structure of fields (`StoreReport`, `StationHead`, `ChannelReport`, `RecordAt`). -/
theorem reportLayouts : Obligations.ReportLayouts := by
  refine ⟨⟨rfl, rfl, rfl, rfl, rfl, fun _ _ => rfl⟩, ?_, ?_, fun _ _ _ hk hn => fieldAt_counterBytes hk hn, fun _ => ⟨rfl, rfl⟩,
    fun _ => ⟨rfl, rfl⟩, fun _ => ⟨rfl, rfl⟩, fun _ => ⟨rfl, rfl⟩⟩
  · intro s b
    obtain ⟨length, store, remembered, epoch, depth, hold, action, window, lo, opens, pages, free, closed, emitting, queue, waits, head,
      emitter, sends, number, fragment, skip⟩ := storeReport_fields s
    refine ⟨length, store, remembered, epoch, depth, hold, action, fun hlo => ?_, fun e hlo => ?_, pages, fun hmost => ?_, queue,
      fun hq => ?_, fun j rest hq => ?_, emitter, fun he => ?_, fun e he => ?_, skip⟩
    · rw [hlo] at window lo
      exact ⟨window, lo (by decide)⟩
    · rw [hlo] at window lo
      exact ⟨window, lo⟩
    · intro numberOf
      have most (x : RecordState) : s.countRecords x < 256 := by
        have := countRecords_le s x
        omega
      obtain ⟨opens15, opens19⟩ := opens (most .opened)
      have closed20 := closed (most .closed)
      have emitting21 := emitting (most .emitting)
      have sum : s.openCount + s.countRecords .closed + s.countRecords .emitting = s.records.length := countRecords_sum s.records
      refine ⟨opens15, free, opens19, closed20, emitting21, ?_⟩
      rw [free, opens19, closed20, emitting21]
      omega
    · rw [hq] at waits head
      exact ⟨waits, head (Nat.two_pow_pos 48)⟩
    · rw [hq] at waits head
      refine ⟨waits, fun r hr hsmall => ?_⟩
      simp only [List.head?_cons, Option.map_some, Option.getD_some, epochOf_of_record hr] at head
      exact head hsmall
    · rw [he] at sends number fragment
      exact ⟨sends, number (Nat.two_pow_pos 48), fragment (by decide)⟩
    · rw [emission_of_sends he] at sends number fragment
      refine ⟨sends, fragment, fun r hr hsmall => ?_⟩
      simp only [Option.map_some, Option.getD_some, epochOf_of_record hr] at number
      exact number hsmall
  · intro st b layout
    have head := stationReport_headFields st
    have stopped (h : st.silence = none) : st.silenceMs = 0 := by rw [Station.silenceMs, h]
    obtain ⟨flag, eSw⟩ := stationReport_window st
    refine ⟨length_stationReport st, head.state, head.code, head.mask, head.limit, fun h => ?_, fun n hn hlimit => ?_, fun c => ?_,
      stationReport_recordAt (k := 5) (by simp), stationReport_recordAt (k := 6) (by simp), stationReport_recordAt (k := 7) (by simp),
      fun h => ?_, fun q hq => ?_⟩
    · exact head.silence (by rw [stopped h]; decide) |>.trans (stopped h)
    · have running := silenceMs_of_running hn
      refine (head.silence ?_).trans running
      rw [running]
      split_ifs <;> omega
    · obtain ⟨rate, word, order, absent, window⟩ := channelReport_fields (st.channels.get c)
      intro ch off
      have field {j len : Nat} (h : j + len ≤ 11) : fieldAt b (off + j) len = fieldAt (channelReport ch) j len :=
        fieldAt_stationReport_channel st c h
      refine ⟨fun h => (field (j := 0) (by decide)).trans (rate h), (field (by decide)).trans (word.trans ?_),
        (field (by decide)).trans (order.trans ?_), fun h => (stationReport_channel st c (by decide)).trans (absent h),
        fun w hw => ?_⟩
      · cases ch.word <;> rfl
      · cases ch.order <;> rfl
      · obtain ⟨present, high, marks, stale⟩ := window w hw
        exact ⟨(field (by decide)).trans present, (field (by decide)).trans high, (field (by decide)).trans marks,
          fun h => (field (by decide)).trans (stale h)⟩
    · rw [h] at flag eSw
      exact ⟨flag, eSw (Nat.two_pow_pos 48)⟩
    · rw [hq] at flag eSw
      exact ⟨flag, eSw⟩

end Sys2Proof.Machine
end
